-- ==== Sys2Proof/Word.lean ====
section
/-! DEFINITION. The word and byte types of BLAKE2S-CORE (00_scope.md R7, R8): 32-bit words, 8-bit bytes,
the 64-bit byte counter. Every value is unsigned. -/

namespace Sys2Proof

/-- A 32-bit word: CMD, ARG, RDATA, the CFG registers, P, H and the working vector (R7, R51 to R53). -/
abbrev Word := BitVec 32

/-- An 8-bit byte: message, key, salt, personalization and digest bytes, selectors and response codes. -/
abbrev Byte := BitVec 8

/-- The byte counter T (10_state.md R25): 64 bits, arithmetic modulo 2^64 (42_streaming.md R85). -/
abbrev Count := BitVec 64

end Sys2Proof
end

