-- ==== Sys2Proof/Syntax.lean ====
section
/-! DEFINITION. The commands of the port (30_encoding.md R54), one constructor per row of spec/opcode_table.json,
and the names of the selector map (10_state.md R35). -/

namespace Sys2Proof

/-- A command with the operands it reads. A command that ignores ARG (R52) carries none. `sel` and `n` are the raw
8-bit field CMD[15:8]: every value of it is a legal command word, and the command's own rule refuses the bad ones
(R55, R56). -/
inductive Instr where
  /-- NOP (43_engine_surface.md R98). -/
  | nop
  /-- CFG_WR (40_parameter_block.md R61): store `arg` in the staging register `sel`. -/
  | cfgWr (sel : Byte) (arg : Word)
  /-- RD (43_engine_surface.md R97): read the register `sel`. -/
  | rd (sel : Byte)
  /-- INIT (40_parameter_block.md R62): construct the engine. -/
  | init
  /-- RESET (42_streaming.md R91): restart the message. -/
  | reset
  /-- WRITE (42_streaming.md R87): append the low `n` bytes of `arg`. -/
  | write (n : Byte) (arg : Word)
  /-- SUM (42_streaming.md R89): compute the digest of the stream so far. -/
  | sum
  /-- CLRERR (43_engine_surface.md R99): clear LASTERR. -/
  | clrerr
  deriving DecidableEq, Repr

/-- The registers that a selector can name (10_state.md R35). -/
inductive Reg where
  /-- CFG0..CFG3 (R14 to R17). -/
  | cfg (i : Fin 4)
  /-- CFG4 (R18). -/
  | cfg4
  /-- KEY0..KEY7, write-only (R19). -/
  | key (i : Fin 8)
  /-- SALT0..SALT1 (R20). -/
  | salt (i : Fin 2)
  /-- PERS0..PERS1 (R20). -/
  | pers (i : Fin 2)
  /-- STATUS (R30). -/
  | status
  /-- ENGCFG (R31). -/
  | engcfg
  /-- INFO (R32). -/
  | info
  /-- P0..P7 (R23). -/
  | p (i : Fin 8)
  /-- H0..H7 (R24). -/
  | h (i : Fin 8)
  /-- T0, T1 (R25). -/
  | t (i : Fin 2)
  /-- BUF0..BUF15 (R26). -/
  | buf (i : Fin 16)
  /-- DIGEST0..DIGEST7 (R27). -/
  | digest (i : Fin 8)
  deriving DecidableEq, Repr

end Sys2Proof
end

