-- ==== Sys2Proof/Decode.lean ====
section
/-! DEFINITION. The command word and its decoder and encoder (30_encoding.md R51 to R58). The decoder is total: every
pair (CMD, ARG) is a command or is rejected by name; a rejected word is answered ILLEGAL_CMD by the port. -/

namespace Sys2Proof

/-- OPC = CMD[7:0] (R51). -/
def cmdOpc (cmd : Word) : Byte := cmd.extractLsb' 0 8

/-- SEL, or the byte count N of WRITE, = CMD[15:8] (R51). -/
def cmdSel (cmd : Word) : Byte := cmd.extractLsb' 8 8

/-- RSVD = CMD[31:16] (R51). -/
def cmdRsvd (cmd : Word) : BitVec 16 := cmd.extractLsb' 16 16

/-- Why a word is no command (R55, in the order of its checks). -/
inductive Reject where
  /-- CMD[31:16] is not 0. -/
  | reservedBits
  /-- OPC is 0x08..0xFF. -/
  | unknownOpcode
  /-- SEL is not 0 on NOP, INIT, RESET, SUM or CLRERR. -/
  | selNotZero
  deriving DecidableEq, Repr

/-- What the decoder answers. -/
inductive Decoded where
  | instr (i : Instr)
  | illegal (why : Reject)
  deriving DecidableEq, Repr

/-- The opcode (R54). -/
def Instr.opc : Instr → Byte
  | .nop => 0x00
  | .cfgWr _ _ => 0x01
  | .rd _ => 0x02
  | .init => 0x03
  | .reset => 0x04
  | .write _ _ => 0x05
  | .sum => 0x06
  | .clrerr => 0x07

/-- The opcodes whose CMD[15:8] is an operand: CFG_WR, RD and WRITE (R51, R55). -/
def opcTakesSel (opc : Byte) : Bool := opc == 0x01 || opc == 0x02 || opc == 0x05

/-- The command an opcode below 8 names, with SEL and ARG (R54, R56). -/
def instrOfOpc (opc : Byte) (sel : Byte) (arg : Word) : Option Instr :=
  match opc.toNat with
  | 0 => some .nop
  | 1 => some (.cfgWr sel arg)
  | 2 => some (.rd sel)
  | 3 => some .init
  | 4 => some .reset
  | 5 => some (.write sel arg)
  | 6 => some .sum
  | 7 => some .clrerr
  | _ => none

/-- The decoder of R55: the reserved bits, then the opcode, then SEL on an opcode that has none. -/
def decode (cmd arg : Word) : Decoded :=
  if cmdRsvd cmd ≠ 0 then .illegal .reservedBits
  else
    match instrOfOpc (cmdOpc cmd) (cmdSel cmd) arg with
    | none => .illegal .unknownOpcode
    | some i =>
      if !opcTakesSel (cmdOpc cmd) && cmdSel cmd != 0 then .illegal .selNotZero
      else .instr i

/-- The field CMD[15:8] of a command: its selector or byte count, 0 where it has none (R51). -/
def Instr.selField : Instr → Byte
  | .cfgWr sel _ => sel
  | .rd sel => sel
  | .write n _ => n
  | .nop | .init | .reset | .sum | .clrerr => 0

/-- The argument a command assembles with: 0 where it ignores ARG (R59). -/
def Instr.argField : Instr → Word
  | .cfgWr _ arg => arg
  | .write _ arg => arg
  | .nop | .rd _ | .init | .reset | .sum | .clrerr => 0

/-- The command word: CMD = (SEL << 8) | OPC (R59). -/
def Instr.cmdWord (i : Instr) : Word :=
  (i.selField.setWidth 32 <<< 8) ||| i.opc.setWidth 32

/-- The encoder: the pair (CMD, ARG) of a command (R51, R52, R59). -/
def encode (i : Instr) : Word × Word := (i.cmdWord, i.argField)

/-- One row of the opcode map (R54). -/
structure OpcodeRow where
  mnemonic : String
  matchBits : Word
  mask : Word
  deriving DecidableEq, Repr

/-- The row of R54 that a command belongs to. -/
def Instr.row : Instr → OpcodeRow
  | .nop => ⟨"NOP", 0x00000000, 0xFFFFFFFF⟩
  | .cfgWr _ _ => ⟨"CFG_WR", 0x00000001, 0xFFFF00FF⟩
  | .rd _ => ⟨"RD", 0x00000002, 0xFFFF00FF⟩
  | .init => ⟨"INIT", 0x00000003, 0xFFFFFFFF⟩
  | .reset => ⟨"RESET", 0x00000004, 0xFFFFFFFF⟩
  | .write _ _ => ⟨"WRITE", 0x00000005, 0xFFFF00FF⟩
  | .sum => ⟨"SUM", 0x00000006, 0xFFFFFFFF⟩
  | .clrerr => ⟨"CLRERR", 0x00000007, 0xFFFFFFFF⟩

/-- The opcode map of R54, one row per opcode. -/
def opcodeMap : List OpcodeRow :=
  [Instr.nop.row, (Instr.cfgWr 0 0).row, (Instr.rd 0).row, Instr.init.row, Instr.reset.row, (Instr.write 0 0).row,
    Instr.sum.row, Instr.clrerr.row]

/-- "A word W selects a row when (W & mask) = match" (R54). -/
def rowSelected (cmd : Word) (r : OpcodeRow) : Bool := (cmd &&& r.mask) == r.matchBits

/-- CMD of a command given as bits numbered from the first word's least significant bit: bits 31..0, those at or above
`nbits` being 0. -/
def tableCmd (nbits w : Nat) : Word := BitVec.ofNat 32 (w % 2 ^ nbits)

/-- ARG of the same: bits 63..32, so 0 for a table row of 32 bits (log entry 5). -/
def tableArg (nbits w : Nat) : Word := BitVec.ofNat 32 (w % 2 ^ nbits / 2 ^ 32)

/-- The command the decoder reads from bits numbered as spec/opcode_table.json numbers them. -/
def decodeTableWord (nbits w : Nat) : Option Instr :=
  match decode (tableCmd nbits w) (tableArg nbits w) with
  | .instr i => some i
  | .illegal _ => none

end Sys2Proof
end

