-- ==== Sys2Proof/Config.lean ====
section
/-! DEFINITION. The fixed parameters of the block (00_scope.md R7). The spec's only OPEN parameters are LATENCY and
HOST_MAPPING (92_eei_decisions.md): LATENCY is the `busy` field of each clock edge (Machine/State.lean, log entry 3),
HOST_MAPPING lies outside the block (20_memory.md R43, log entry 12). The spec leaves no value open, so there is no free
value here. -/

namespace Sys2Proof.Config

/-- The block size BB: 64 bytes (R7). -/
abbrev blockBytes : Nat := 64

/-- NN_MAX, the longest digest, and the default when SIZE is 0 (R7). -/
abbrev maxDigestBytes : Nat := 32

/-- KK_MAX, the longest key (R7). -/
abbrev maxKeyBytes : Nat := 32

/-- The longest salt (R7). -/
abbrev maxSaltBytes : Nat := 8

/-- The longest personalization (R7). -/
abbrev maxPersBytes : Nat := 8

/-- The longest inner hash (R7). -/
abbrev maxInnerBytes : Nat := 32

/-- The most bytes one WRITE carries (R7). -/
abbrev maxWriteBytes : Nat := 4

end Sys2Proof.Config
end

