-- ==== Sys2Proof/Machine/Bytes.lean ====
section
/-! DEFINITION. Byte and word conversions (00_scope.md R8, R10; 20_memory.md R38, R39): little-endian, byte k of a word
in bits 8k+7:8k. -/

namespace Sys2Proof.Machine

/-- Byte k of a word, `w[8k+7:8k]` (R38). -/
def wordByte (w : Word) (k : Nat) : Byte := w.extractLsb' (8 * k) 8

/-- B[i], 0 beyond the array. -/
def byteAt {n : Nat} (b : Vector Byte n) (i : Nat) : Byte := b[i]?.getD 0

/-- The word with the given bytes, lowest first (R10). -/
def wordOfBytes (b0 b1 b2 b3 : Byte) : Word := b3 ++ b2 ++ b1 ++ b0

/-- LE32(B, i), the word of bytes 4i..4i+3 (R10). -/
def le32 {n : Nat} (b : Vector Byte n) (i : Nat) : Word :=
  wordOfBytes (byteAt b (4 * i)) (byteAt b (4 * i + 1)) (byteAt b (4 * i + 2)) (byteAt b (4 * i + 3))

/-- LEBYTES of eight words: byte 4i+j is byte j of word i (R10). -/
def leBytes (w : Vector Word 8) : Vector Byte 32 :=
  Vector.ofFn fun k => wordByte w[k.val / 4] (k.val % 4)

/-- The array with bytes 4i..4i+3 replaced by the bytes of a word (R19, R20, R39). -/
def setLe32 {n : Nat} (b : Vector Byte n) (i : Nat) (w : Word) : Vector Byte n :=
  Vector.ofFn fun k => if k.val / 4 = i then wordByte w (k.val % 4) else b[k]

/-- The first `len` bytes of an array, then zeros (40_parameter_block.md R65). -/
def keepFirst {n : Nat} (len : Nat) (b : Vector Byte n) : Vector Byte n :=
  Vector.ofFn fun k => if k.val < len then b[k] else 0

/-- A byte string extended with zeros to n bytes, `l ++ zeros(n - length)`. -/
def padTo (n : Nat) (l : List Byte) : Vector Byte n :=
  Vector.ofFn fun k => l[k.val]?.getD 0

end Sys2Proof.Machine
end

