-- ==== Sys2Proof/Machine/State.lean ====
section
/-! DEFINITION. The state of the block as plain data (10_state.md R13, which is complete by R33 and R34), the state of
its command port (30_encoding.md R49, R50), the response codes (60_exceptions.md R104) and the state after hardware
reset (R121). -/

namespace Sys2Proof.Machine

/-- What stops the machine. The spec has no trap and no stop: every error is the response of the command that caused
it, and the block goes on (60_exceptions.md R103, R112, R113). So there is no constructor and nothing raises one (log
entry 11); safe, since no behaviour of the spec is cut off. -/
inductive Fault where
  deriving DecidableEq, Repr

/-- Why an instruction has no meaning. -/
inductive Refusal where
  /-- Raised by an arm of exec whose instruction has no meaning yet; no arm does. Safe: the machine stops. -/
  | notModelled (mnemonic : String)
  deriving DecidableEq, Repr

/-- The response codes (60_exceptions.md R104). -/
inductive RC where
  | ok
  | illegalCmd
  | badSel
  | badCount
  | notConfigured
  | cfgSize
  | cfgKeyLen
  | cfgSaltLen
  | cfgPersLen
  | cfgInnerSize
  deriving DecidableEq, Repr

/-- A response: RC and RDATA (30_encoding.md R53). -/
structure Response where
  /-- rsp_code[7:0]. -/
  code : Byte
  /-- rsp_data[31:0]. -/
  data : Word
  deriving DecidableEq, Repr

/-- What happens at the pins at one rising edge of clk (30_encoding.md R49): the five inputs the block samples, and
`busy`, the OPEN parameter LATENCY (70_reset_and_hazards.md R133, log entry 3). -/
structure ClockEdge where
  /-- rst_n, active low. -/
  rstN : Bool
  /-- cmd_valid. -/
  cmdValid : Bool
  /-- cmd_word[31:0], the CMD offered. -/
  cmdWord : Word
  /-- cmd_arg[31:0], its ARG. -/
  cmdArg : Word
  /-- rsp_ready. -/
  rspReady : Bool
  /-- LATENCY: at this edge the block is still working on the outstanding command. -/
  busy : Bool
  deriving DecidableEq, Repr

/-- The whole state. The first eighteen fields are R13's inventory, in its order. -/
structure State where
  /-- CFG0..CFG3, the staged configuration words (R14 to R17). -/
  cfg : Vector Word 4
  /-- CFG4: TREE_EN = bit 0, LAST_NODE = bit 1 (R18). -/
  cfg4 : BitVec 2
  /-- KEY[0..31], the staged key (R19). -/
  key : Vector Byte 32
  /-- SALT[0..7], the staged salt (R20). -/
  salt : Vector Byte 8
  /-- PERS[0..7], the staged personalization (R20). -/
  pers : Vector Byte 8
  /-- CONFIGURED: an engine exists (R21). -/
  configured : Bool
  /-- DLEN, the engine's digest length, 0 before any INIT (R22). -/
  dlen : BitVec 6
  /-- KLEN, the engine's key length (R22). -/
  klen : BitVec 6
  /-- KEYL[0..31], the engine's key (R22). -/
  keyl : Vector Byte 32
  /-- LASTNODE, the engine's last-node flag (R22). -/
  lastNode : Bool
  /-- P[0..7], the engine's parameter block (R23). -/
  p : Vector Word 8
  /-- H[0..7], the chaining value (R24). -/
  h : Vector Word 8
  /-- T, the byte counter (R25). -/
  t : Count
  /-- BUF[0..63], the block buffer (R26). -/
  buf : Vector Byte 64
  /-- BUFLEN, the buffer's fill length (R26). -/
  bufLen : BitVec 7
  /-- DIGEST[0..31], the last digest produced (R27). -/
  digest : Vector Byte 32
  /-- DVALID: DIGEST is the digest of the current stream (R28). -/
  dvalid : Bool
  /-- LASTERR, the code of the most recent failed command (R29). -/
  lastErr : Byte
  /-- The response of the accepted command, until it is delivered (30_encoding.md R50). -/
  outstanding : Option Response
  /-- The model's own: the edges of clk still to come, the next one first (log entry 1). -/
  edges : List ClockEdge
  /-- The model's own: the responses delivered so far, oldest first (log entry 4). -/
  delivered : List Response
  deriving DecidableEq, Repr

/-- The block right after hardware reset (R13, R121): every element zero, no engine, no command outstanding. -/
def State.reset : State where
  cfg := Vector.replicate 4 0
  cfg4 := 0
  key := Vector.replicate 32 0
  salt := Vector.replicate 8 0
  pers := Vector.replicate 8 0
  configured := false
  dlen := 0
  klen := 0
  keyl := Vector.replicate 32 0
  lastNode := false
  p := Vector.replicate 8 0
  h := Vector.replicate 8 0
  t := 0
  buf := Vector.replicate 64 0
  bufLen := 0
  digest := Vector.replicate 32 0
  dvalid := false
  lastErr := 0
  outstanding := none
  edges := []
  delivered := []

end Sys2Proof.Machine
end

