-- ==== Sys2Proof/Machine/Flags.lean ====
section
/-! DEFINITION. The response codes as numbers (60_exceptions.md R104) and the status words that software reads
(10_state.md R30 to R32). -/

namespace Sys2Proof.Machine

/-- The value of a response code (60_exceptions.md R104). -/
def codeOf : RC → Byte
  | .ok => 0x00
  | .illegalCmd => 0x01
  | .badSel => 0x02
  | .badCount => 0x03
  | .notConfigured => 0x04
  | .cfgSize => 0x10
  | .cfgKeyLen => 0x11
  | .cfgSaltLen => 0x12
  | .cfgPersLen => 0x13
  | .cfgInnerSize => 0x14

/-- STATUS: CONFIGURED, DVALID, LASTERR in 15:8, BUFLEN in 22:16 (10_state.md R30). -/
def statusWord (s : State) : Word :=
  0#9 ++ s.bufLen ++ s.lastErr ++ 0#6 ++ BitVec.ofBool s.dvalid ++ BitVec.ofBool s.configured

/-- ENGCFG: DLEN in 7:0, KLEN in 15:8, LASTNODE in bit 16 (10_state.md R31). -/
def engcfgWord (s : State) : Word :=
  0#15 ++ BitVec.ofBool s.lastNode ++ s.klen.setWidth 8 ++ s.dlen.setWidth 8

/-- INFO, a constant (10_state.md R32). -/
def infoWord : Word := 0x00202040

/-- TREE_EN = CFG4[0] (10_state.md R18). -/
def treeEn (s : State) : Bool := s.cfg4.getLsbD 0

/-- LAST_NODE = CFG4[1] (10_state.md R18). -/
def lastNodeCfg (s : State) : Bool := s.cfg4.getLsbD 1

end Sys2Proof.Machine
end

