-- ==== Sys2Proof/Machine/Ops.lean ====
section
/-! DEFINITION. The shared operations: answering a command, failing a command (the block's whole "exception",
60_exceptions.md R105, R106, R112; there is no return from one, R113), delivering a response and hardware reset. -/

namespace Sys2Proof.Machine

/-- The state with a response waiting to be delivered (30_encoding.md R50). -/
def withResponse (rc : RC) (data : Word) (s : State) : State :=
  { s with outstanding := some ⟨codeOf rc, data⟩ }

/-- `respond(v)`: the command succeeds with RC = OK and RDATA = v (00_scope.md R11). -/
def respond (data : Word) (s : State) : Host.Outcome State Fault Refusal :=
  .next (withResponse .ok data s)

/-- The state after `raise Err(code)`: LASTERR <- code, response (code, 0), nothing else
(60_exceptions.md R105, R106). -/
def failState (rc : RC) (s : State) : State :=
  withResponse rc 0 { s with lastErr := codeOf rc }

/-- `raise Err(code)` (00_scope.md R11). -/
def fail (rc : RC) (s : State) : Host.Outcome State Fault Refusal :=
  .next (failState rc s)

/-- The outstanding response is delivered; the block is ready again (30_encoding.md R50). -/
def deliver (s : State) : State :=
  match s.outstanding with
  | none => s
  | some r => { s with outstanding := none, delivered := s.delivered ++ [r] }

/-- Hardware reset (70_reset_and_hazards.md R121, R122): every element to its reset value, an outstanding command
discarded with no response. What is outside the block stays: the edges to come and the responses already delivered. -/
def hardwareReset (s : State) : State :=
  { State.reset with edges := s.edges, delivered := s.delivered }

end Sys2Proof.Machine
end

