-- ==== Sys2Proof/Machine/Operands.lean ====
section
/-! DEFINITION. Operands: the selector map (10_state.md R35), reading and writing the register a selector names
(43_engine_surface.md R97, 40_parameter_block.md R61), and the message bytes of WRITE (30_encoding.md R52, R56). -/

namespace Sys2Proof.Machine

/-- The register at a selector, none where it is unmapped (10_state.md R35). -/
def regOfSel (sel : Byte) : Option Reg :=
  if h : sel.toNat < 0x04 then some (.cfg ⟨sel.toNat, by omega⟩)
  else if sel.toNat = 0x04 then some .cfg4
  else if h : 0x08 ≤ sel.toNat ∧ sel.toNat < 0x10 then some (.key ⟨sel.toNat - 0x08, by omega⟩)
  else if h : 0x10 ≤ sel.toNat ∧ sel.toNat < 0x12 then some (.salt ⟨sel.toNat - 0x10, by omega⟩)
  else if h : 0x12 ≤ sel.toNat ∧ sel.toNat < 0x14 then some (.pers ⟨sel.toNat - 0x12, by omega⟩)
  else if sel.toNat = 0x20 then some .status
  else if sel.toNat = 0x21 then some .engcfg
  else if sel.toNat = 0x22 then some .info
  else if h : 0x28 ≤ sel.toNat ∧ sel.toNat < 0x30 then some (.p ⟨sel.toNat - 0x28, by omega⟩)
  else if h : 0x30 ≤ sel.toNat ∧ sel.toNat < 0x38 then some (.h ⟨sel.toNat - 0x30, by omega⟩)
  else if h : 0x38 ≤ sel.toNat ∧ sel.toNat < 0x3A then some (.t ⟨sel.toNat - 0x38, by omega⟩)
  else if h : 0x40 ≤ sel.toNat ∧ sel.toNat < 0x50 then some (.buf ⟨sel.toNat - 0x40, by omega⟩)
  else if h : 0x50 ≤ sel.toNat ∧ sel.toNat < 0x58 then some (.digest ⟨sel.toNat - 0x50, by omega⟩)
  else none

/-- The selector of a register (10_state.md R35). -/
def selOfReg : Reg → Byte
  | .cfg i => BitVec.ofNat 8 (0x00 + i.val)
  | .cfg4 => 0x04
  | .key i => BitVec.ofNat 8 (0x08 + i.val)
  | .salt i => BitVec.ofNat 8 (0x10 + i.val)
  | .pers i => BitVec.ofNat 8 (0x12 + i.val)
  | .status => 0x20
  | .engcfg => 0x21
  | .info => 0x22
  | .p i => BitVec.ofNat 8 (0x28 + i.val)
  | .h i => BitVec.ofNat 8 (0x30 + i.val)
  | .t i => BitVec.ofNat 8 (0x38 + i.val)
  | .buf i => BitVec.ofNat 8 (0x40 + i.val)
  | .digest i => BitVec.ofNat 8 (0x50 + i.val)

/-- The value RD returns for a register; KEY reads as 0 (43_engine_surface.md R97, 10_state.md R19). BUF
of a fresh keyed engine reads as its key block (log entry 9). -/
def readReg (s : State) : Reg → Word
  | .cfg i => s.cfg[i]
  | .cfg4 => s.cfg4.setWidth 32
  | .key _ => 0
  | .salt i => le32 s.salt i.val
  | .pers i => le32 s.pers i.val
  | .status => statusWord s
  | .engcfg => engcfgWord s
  | .info => infoWord
  | .p i => s.p[i]
  | .h i => s.h[i]
  | .t i => s.t.extractLsb' (32 * i.val) 32
  | .buf i => le32 s.buf i.val
  | .digest i => le32 s.digest i.val

/-- The state after CFG_WR stores a value in a staging register, none for a read-only register
(40_parameter_block.md R61). CFG4 keeps bits 1:0 (10_state.md R18). -/
def writeReg (s : State) (v : Word) : Reg → Option State
  | .cfg i => some { s with cfg := s.cfg.set i.val v }
  | .cfg4 => some { s with cfg4 := v.extractLsb' 0 2 }
  | .key i => some { s with key := setLe32 s.key i.val v }
  | .salt i => some { s with salt := setLe32 s.salt i.val v }
  | .pers i => some { s with pers := setLe32 s.pers i.val v }
  | .status | .engcfg | .info | .p _ | .h _ | .t _ | .buf _ | .digest _ => none

/-- The message bytes of WRITE: byte k = ARG[8k+7:8k] for k = 0..n-1, first to last (30_encoding.md R52). -/
def writeBytes (n : Nat) (arg : Word) : List Byte :=
  (List.range n).map (wordByte arg)

end Sys2Proof.Machine
end

