-- ==== Sys2Proof/Machine/Compression.lean ====
section
/-! DEFINITION. The compression function F (41_compression.md R73 to R83), a pure function. The constants are the
spec's (R74, R75). -/

namespace Sys2Proof.Machine

/-- The initialization constants (R74). -/
def IV : Vector Word 8 :=
  #v[0x6A09E667, 0xBB67AE85, 0x3C6EF372, 0xA54FF53A, 0x510E527F, 0x9B05688C, 0x1F83D9AB, 0x5BE0CD19]

/-- One row of the message schedule. -/
abbrev Schedule := Vector (Fin 16) 16

/-- The message schedule, ten rows (R75). -/
def SIGMA : Vector Schedule 10 :=
  #v[#v[0, 1, 2, 3, 4, 5, 6, 7, 8, 9, 10, 11, 12, 13, 14, 15],
     #v[14, 10, 4, 8, 9, 15, 13, 6, 1, 12, 0, 2, 11, 7, 5, 3],
     #v[11, 8, 12, 0, 5, 2, 15, 13, 10, 14, 3, 6, 7, 1, 9, 4],
     #v[7, 9, 3, 1, 13, 12, 11, 14, 2, 6, 5, 10, 4, 0, 15, 8],
     #v[9, 0, 5, 7, 2, 4, 10, 15, 14, 1, 11, 12, 6, 8, 3, 13],
     #v[2, 12, 6, 10, 0, 11, 8, 3, 4, 13, 7, 5, 15, 14, 1, 9],
     #v[12, 5, 1, 15, 14, 13, 4, 10, 0, 7, 6, 3, 9, 2, 8, 11],
     #v[13, 11, 7, 14, 12, 1, 3, 9, 5, 0, 15, 4, 8, 6, 2, 10],
     #v[6, 15, 14, 9, 11, 3, 0, 8, 12, 2, 13, 7, 1, 4, 10, 5],
     #v[10, 2, 8, 4, 7, 6, 1, 5, 15, 11, 9, 14, 3, 12, 13, 0]]

/-- Rotation toward bit 0 (00_scope.md R9). -/
def rotr (x : Word) (n : Nat) : Word := (x >>> n) ||| (x <<< (32 - n))

/-- The four working-vector words G takes and returns. -/
structure Quad where
  a : Word
  b : Word
  c : Word
  d : Word
  deriving DecidableEq, Repr

/-- The mixing function G, its eight steps in order (R78). -/
def mixG (q : Quad) (x y : Word) : Quad :=
  let a := q.a + q.b + x
  let d := rotr (q.d ^^^ a) 16
  let c := q.c + d
  let b := rotr (q.b ^^^ c) 12
  let a := a + b + y
  let d := rotr (d ^^^ a) 8
  let c := c + d
  let b := rotr (b ^^^ c) 7
  ⟨a, b, c, d⟩

/-- The working vector (R77). -/
abbrev WorkVec := Vector Word 16

/-- G applied to the words of the working vector at four positions (R79). -/
def mixAt (v : WorkVec) (ia ib ic id : Fin 16) (x y : Word) : WorkVec :=
  let q := mixG ⟨v[ia], v[ib], v[ic], v[id]⟩ x y
  (((v.set ia.val q.a).set ib.val q.b).set ic.val q.c).set id.val q.d

/-- One round: four columns, then four diagonals, message words taken from the row (R79). -/
def mixRound (m : Vector Word 16) (v : WorkVec) (row : Schedule) : WorkVec :=
  let v := mixAt v 0 4 8 12 m[row[0]] m[row[1]]
  let v := mixAt v 1 5 9 13 m[row[2]] m[row[3]]
  let v := mixAt v 2 6 10 14 m[row[4]] m[row[5]]
  let v := mixAt v 3 7 11 15 m[row[6]] m[row[7]]
  let v := mixAt v 0 5 10 15 m[row[8]] m[row[9]]
  let v := mixAt v 1 6 11 12 m[row[10]] m[row[11]]
  let v := mixAt v 2 7 8 13 m[row[12]] m[row[13]]
  mixAt v 3 4 9 14 m[row[14]] m[row[15]]

/-- The message words of a block (R76). -/
def messageWords (block : Vector Byte 64) : Vector Word 16 :=
  Vector.ofFn fun i => le32 block i.val

/-- The working vector before the first round (R77). -/
def workInit (h : Vector Word 8) (t : Count) (f0 f1 : Word) : WorkVec :=
  #v[h[0], h[1], h[2], h[3], h[4], h[5], h[6], h[7],
     IV[0], IV[1], IV[2], IV[3],
     IV[4] ^^^ t.extractLsb' 0 32, IV[5] ^^^ t.extractLsb' 32 32, IV[6] ^^^ f0, IV[7] ^^^ f1]

/-- The ten rounds (R80). -/
def mixRounds (m : Vector Word 16) (v : WorkVec) : WorkVec :=
  SIGMA.toList.foldl (mixRound m) v

/-- F(h, block, t, f0, f1) (R73, R81). Irreducible, so that no proof runs the rounds by accident; it unfolds by its
equation, and the kernel evaluates it. -/
@[irreducible] def compressF (h : Vector Word 8) (block : Vector Byte 64) (t : Count) (f0 f1 : Word) : Vector Word 8 :=
  let v := mixRounds (messageWords block) (workInit h t f0 f1)
  Vector.ofFn fun i : Fin 8 => h[i] ^^^ v[i.val] ^^^ v[i.val + 8]

/-- The all-ones flag word when the flag is set, else zero (R82). -/
def flagWord (set : Bool) : Word := if set then 0xFFFFFFFF else 0

end Sys2Proof.Machine
end

