-- ==== Sys2Proof/Machine/Stream.lean ====
section
/-! DEFINITION. The internal operations of the stream (42_streaming.md R84 to R90): absorbing a byte with lazy flush,
finalization of a copy, and re-initialisation from the latched engine. -/

namespace Sys2Proof.Machine

/-- A full buffer is compressed: T counts its 64 bytes first, F sees that count, the buffer empties (R86). -/
def flush (s : State) : State :=
  { s with
    t := s.t + 64
    h := compressF s.h s.buf (s.t + 64) 0 0
    buf := Vector.replicate 64 0
    bufLen := 0 }

/-- One byte is appended to the buffer (R86). A BUFLEN above 63, which no run reaches here, stores nothing
(log entry 7). -/
def appendByte (b : Byte) (s : State) : State :=
  { s with
    buf := s.buf.setIfInBounds s.bufLen.toNat b
    bufLen := s.bufLen + 1 }

/-- absorb(b): the buffer is flushed only when it is full and one more byte has arrived (R86). -/
def absorb (s : State) (b : Byte) : State :=
  appendByte b (if s.bufLen = 64 then flush s else s)

/-- The bytes of a message, absorbed in order (R87). -/
def absorbAll (l : List Byte) (s : State) : State :=
  l.foldl absorb s

/-- finalize(): the digest of a copy of the stream, DLEN bytes; nothing is written (R88). -/
def finalize (s : State) : List Byte :=
  let t := s.t + s.bufLen.setWidth 64
  let block := keepFirst s.bufLen.toNat s.buf
  let h' := compressF s.h block t (flagWord true) (flagWord s.lastNode)
  (leBytes h').toList.take s.dlen.toNat

/-- The key block KEYL ++ zeros(32) (40_parameter_block.md R69). -/
def keyBlock (s : State) : Vector Byte 64 :=
  padTo 64 s.keyl.toList

/-- reinit(): H = IV ^ P, T = 0, the buffer empty or holding the key block, DVALID = 0 (R90). -/
def reinit (s : State) : State :=
  { s with
    h := Vector.ofFn fun i => IV[i] ^^^ s.p[i]
    t := 0
    buf := if s.klen = 0 then Vector.replicate 64 0 else keyBlock s
    bufLen := if s.klen = 0 then 0 else 64
    dvalid := false }

end Sys2Proof.Machine
end

