-- ==== Sys2Proof/Machine/ParameterBlock.lean ====
section
/-! DEFINITION. The parameter block family (40_parameter_block.md): CFG_WR stages the configuration, INIT validates it,
builds the parameter block and latches the engine. -/

namespace Sys2Proof.Machine

/-- SIZE = CFG0[7:0] (10_state.md R14). -/
def cfgSize (s : State) : Byte := s.cfg[0].extractLsb' 0 8

/-- KEY_LEN = CFG0[15:8] (10_state.md R14). -/
def cfgKeyLen (s : State) : Byte := s.cfg[0].extractLsb' 8 8

/-- SALT_LEN = CFG0[23:16] (10_state.md R14). -/
def cfgSaltLen (s : State) : Byte := s.cfg[0].extractLsb' 16 8

/-- PERS_LEN = CFG0[31:24] (10_state.md R14). -/
def cfgPersLen (s : State) : Byte := s.cfg[0].extractLsb' 24 8

/-- FANOUT = CFG1[7:0] (10_state.md R15). -/
def cfgFanout (s : State) : Byte := s.cfg[1].extractLsb' 0 8

/-- MAX_DEPTH = CFG1[15:8] (10_state.md R15). -/
def cfgMaxDepth (s : State) : Byte := s.cfg[1].extractLsb' 8 8

/-- NODE_DEPTH = CFG1[23:16] (10_state.md R15). -/
def cfgNodeDepth (s : State) : Byte := s.cfg[1].extractLsb' 16 8

/-- INNER_SIZE = CFG1[31:24] (10_state.md R15). -/
def cfgInnerSize (s : State) : Byte := s.cfg[1].extractLsb' 24 8

/-- validate(): the first configuration check that fails, none when the configuration is legal (R63). -/
def validate (s : State) : Option RC :=
  if Config.maxDigestBytes < (cfgSize s).toNat then some .cfgSize
  else if Config.maxKeyBytes < (cfgKeyLen s).toNat then some .cfgKeyLen
  else if Config.maxSaltBytes < (cfgSaltLen s).toNat then some .cfgSaltLen
  else if Config.maxPersBytes < (cfgPersLen s).toNat then some .cfgPersLen
  else if treeEn s = true ∧ Config.maxInnerBytes < (cfgInnerSize s).toNat then some .cfgInnerSize
  else none

/-- The engine fields INIT derives (R64). -/
structure EngineFields where
  dlen : Byte
  klen : Byte
  fanout : Byte
  depth : Byte
  leaf : Word
  offset : Word
  nodeDepth : Byte
  inner : Byte
  lastNode : Bool
  deriving DecidableEq, Repr

/-- The digest length of the engine: SIZE, or the default 32 when SIZE is 0 (R64). -/
def digestLength (size : Byte) : Byte := if size = 0 then 32 else size

/-- The derived fields: tree mode takes the staged tree fields, sequential mode fanout 1, depth 1 and zeros (R64). -/
def deriveFields (s : State) : EngineFields where
  dlen := digestLength (cfgSize s)
  klen := cfgKeyLen s
  fanout := if treeEn s then cfgFanout s else 1
  depth := if treeEn s then cfgMaxDepth s else 1
  leaf := if treeEn s then s.cfg[2] else 0
  offset := if treeEn s then s.cfg[3] else 0
  nodeDepth := if treeEn s then cfgNodeDepth s else 0
  inner := if treeEn s then cfgInnerSize s else 0
  lastNode := treeEn s && lastNodeCfg s

/-- The 32-byte parameter block PB, byte by byte (R66); salt and personalization are zero beyond their lengths
(R65). -/
def paramBlock (f : EngineFields) (salt pers : Vector Byte 8) : Vector Byte 32 :=
  #v[f.dlen, f.klen, f.fanout, f.depth,
     wordByte f.leaf 0, wordByte f.leaf 1, wordByte f.leaf 2, wordByte f.leaf 3,
     wordByte f.offset 0, wordByte f.offset 1, wordByte f.offset 2, wordByte f.offset 3,
     0, 0, f.nodeDepth, f.inner,
     salt[0], salt[1], salt[2], salt[3], salt[4], salt[5], salt[6], salt[7],
     pers[0], pers[1], pers[2], pers[3], pers[4], pers[5], pers[6], pers[7]]

/-- The parameter block of the staged configuration (R65, R66). -/
def stagedBlock (s : State) : Vector Byte 32 :=
  paramBlock (deriveFields s) (keepFirst (cfgSaltLen s).toNat s.salt) (keepFirst (cfgPersLen s).toNat s.pers)

/-- The engine latched from the staging registers, CONFIGURED set (R62, R65, R67). -/
def latchEngine (s : State) : State :=
  let f := deriveFields s
  { s with
    dlen := f.dlen.setWidth 6
    klen := f.klen.setWidth 6
    lastNode := f.lastNode
    keyl := keepFirst f.klen.toNat s.key
    p := Vector.ofFn fun i => le32 (stagedBlock s) i.val
    configured := true }

/-- CFG_WR (R61): BAD_SEL for an unmapped or read-only selector, else the named staging register takes ARG. -/
def execCfgWr (sel : Byte) (arg : Word) (s : State) : Host.Outcome State Fault Refusal :=
  match (regOfSel sel).bind (writeReg s arg) with
  | none => fail .badSel s
  | some s' => respond 0 s'

/-- INIT (R62): fails with the first configuration error and changes nothing else (R70), or latches the engine and
re-initialises the stream. -/
def execInit (s : State) : Host.Outcome State Fault Refusal :=
  match validate s with
  | some rc => fail rc s
  | none => respond 0 (reinit (latchEngine s))

end Sys2Proof.Machine
end

