-- ==== Sys2Proof/Machine/Streaming.lean ====
section
/-! DEFINITION. The streaming family (42_streaming.md): WRITE, SUM and RESET. -/

namespace Sys2Proof.Machine

/-- WRITE (R87): BAD_COUNT is checked before NOT_CONFIGURED; the bytes are absorbed first to last; DVALID falls when
there is at least one. -/
def execWrite (n : Byte) (arg : Word) (s : State) : Host.Outcome State Fault Refusal :=
  if Config.maxWriteBytes < n.toNat then fail .badCount s
  else if s.configured then
    let s' := absorbAll (writeBytes n.toNat arg) s
    respond (n.setWidth 32) { s' with dvalid := s'.dvalid && n == 0 }
  else fail .notConfigured s

/-- SUM (R89): DIGEST takes the digest of a copy of the stream, zero-padded to 32 bytes; RDATA = DLEN. -/
def execSum (s : State) : Host.Outcome State Fault Refusal :=
  if s.configured then
    respond (s.dlen.setWidth 32) { s with digest := padTo 32 (finalize s), dvalid := true }
  else fail .notConfigured s

/-- RESET (R91): the stream restarts under the latched engine. -/
def execReset (s : State) : Host.Outcome State Fault Refusal :=
  if s.configured then respond 0 (reinit s)
  else fail .notConfigured s

end Sys2Proof.Machine
end

