-- ==== Sys2Proof/Machine/Surface.lean ====
section
/-! DEFINITION. The engine surface (43_engine_surface.md): RD, NOP and CLRERR. -/

namespace Sys2Proof.Machine

/-- RD (R97): the register's value, with no side effect; BAD_SEL where the selector names none. -/
def execRd (sel : Byte) (s : State) : Host.Outcome State Fault Refusal :=
  match regOfSel sel with
  | none => fail .badSel s
  | some r => respond (readReg s r) s

/-- NOP (R98). -/
def execNop (s : State) : Host.Outcome State Fault Refusal :=
  respond 0 s

/-- CLRERR (R99): LASTERR <- 0x00. -/
def execClrerr (s : State) : Host.Outcome State Fault Refusal :=
  respond 0 { s with lastErr := 0 }

end Sys2Proof.Machine
end

