-- ==== Sys2Proof/Machine/Dispatch.lean ====
section
/-! DEFINITION. The meaning of every command, one arm each (30_encoding.md R54). -/

namespace Sys2Proof.Machine

def exec (i : Instr) (s : State) : Host.Outcome State Fault Refusal :=
  match i with
  | .nop => Sys2Proof.Machine.execNop s
  | .cfgWr sel arg => Sys2Proof.Machine.execCfgWr sel arg s
  | .rd sel => Sys2Proof.Machine.execRd sel s
  | .init => Sys2Proof.Machine.execInit s
  | .reset => Sys2Proof.Machine.execReset s
  | .write n arg => Sys2Proof.Machine.execWrite n arg s
  | .sum => Sys2Proof.Machine.execSum s
  | .clrerr => Sys2Proof.Machine.execClrerr s

end Sys2Proof.Machine
end

