-- ==== Sys2Proof/Machine/Port.lean ====
section
/-! DEFINITION. The command port: the transaction step of the spec (00_scope.md R12), and the handshake around it, one
rising edge of clk at a time (30_encoding.md R49, R50; 70_reset_and_hazards.md R121, R122, R130). -/

namespace Sys2Proof.Machine

/-- `step(S, CMD, ARG)` of 00_scope.md R12: the command's meaning, or ILLEGAL_CMD for a word that is none
(30_encoding.md R55). The response is the one left in `outstanding`. -/
def transact (cmd arg : Word) (s : State) : Host.Outcome State Fault Refusal :=
  match decode cmd arg with
  | .instr i => exec i s
  | .illegal _ => fail .illegalCmd s

/-- Commands run one after another, each completely before the next (20_memory.md R45). -/
def execAll : List Instr → State → Host.Outcome State Fault Refusal
  | [], s => .next s
  | i :: rest, s =>
    match exec i s with
    | .next s' => execAll rest s'
    | .fault r => .fault r
    | .refused r => .refused r

/-- A sequence of (CMD, ARG) pairs at transaction level: each is one application of R12's step, and its response is
delivered before the next is accepted (R45, 30_encoding.md R50). -/
def serve : List (Word × Word) → State → Host.Outcome State Fault Refusal
  | [], s => .next s
  | (cmd, arg) :: rest, s =>
    match transact cmd arg s with
    | .next s' => serve rest (deliver s')
    | .fault r => .fault r
    | .refused r => .refused r

/-- cmd_ready at an edge: low during reset, and from acceptance of a command until its response is delivered
(30_encoding.md R50, 70_reset_and_hazards.md R121). -/
def cmdReady (e : ClockEdge) (s : State) : Bool := e.rstN && s.outstanding.isNone

/-- rsp_valid at an edge: a response waits and LATENCY has passed; low during reset (R50, R121, R133). -/
def rspValid (e : ClockEdge) (s : State) : Bool := e.rstN && s.outstanding.isSome && !e.busy

/-- One rising edge of clk: hardware reset, or acceptance of the offered command, or delivery of the outstanding
response, or nothing (R50, R121). A command takes its whole effect at the edge that accepts it (20_memory.md R46, log
entry 8), and its word is sampled there alone (log entry 10). -/
def clockEdge (e : ClockEdge) (s : State) : Host.Outcome State Fault Refusal :=
  if !e.rstN then .next (hardwareReset s)
  else if e.cmdValid && cmdReady e s then transact e.cmdWord e.cmdArg s
  else if rspValid e s && e.rspReady then .next (deliver s)
  else .next s

/-- The next edge, if one is known: with none presented the block keeps its state (60_exceptions.md R120,
70_reset_and_hazards.md R123, log entry 2). -/
def nextEdge (s : State) : Host.Outcome State Fault Refusal :=
  match s.edges with
  | [] => .next s
  | e :: rest => clockEdge e { s with edges := rest }

/-- An edge that offers a command. -/
def commandEdge (cmd arg : Word) : ClockEdge :=
  { rstN := true, cmdValid := true, cmdWord := cmd, cmdArg := arg, rspReady := true, busy := false }

/-- An edge that offers no command and takes the response if there is one. -/
def takeEdge : ClockEdge :=
  { rstN := true, cmdValid := false, cmdWord := 0, cmdArg := 0, rspReady := true, busy := false }

/-- An edge at which the outstanding command is not finished yet (LATENCY). -/
def waitEdge : ClockEdge :=
  { rstN := true, cmdValid := false, cmdWord := 0, cmdArg := 0, rspReady := true, busy := true }

/-- An edge with rst_n = 0. -/
def resetEdge : ClockEdge :=
  { rstN := false, cmdValid := false, cmdWord := 0, cmdArg := 0, rspReady := false, busy := false }

/-- The state in which the port is ready and the next edge offers a command: an outstanding response is delivered
first (log entry 6). -/
def presentCommand (cmd arg : Word) (s : State) : State :=
  let s := deliver s
  { s with edges := commandEdge cmd arg :: s.edges }

end Sys2Proof.Machine
end

