-- ==== Sys2Proof/Machine/Step.lean ====
section
/-! DEFINITION. The step: one rising edge of clk (30_encoding.md R49, R50). -/

namespace Sys2Proof.Machine

/-- One step of the machine: the next edge of clk, at which a command may be accepted and run. -/
def step (s : State) : Host.Outcome State Fault Refusal := nextEdge s

/-- The state in which the next step accepts and runs the command with the given bits (CMD in bits 31..0, ARG in bits
63..32, bits at or above `nbits` zero). -/
def State.withFetchWord (s : State) (nbits w : Nat) : State :=
  presentCommand (tableCmd nbits w) (tableArg nbits w) s

end Sys2Proof.Machine
end

