-- ==== Sys2Proof/Machine/Assembler.lean ====
section
/-! DEFINITION. The assembly notation of the spec (30_encoding.md R59), printed only, and its
pseudo-instructions (R60); log entries 13 and 14. -/

namespace Sys2Proof.Machine

/-- The name of a register (10_state.md R35). -/
def regName : Reg → String
  | .cfg i => "CFG" ++ toString i.val
  | .cfg4 => "CFG4"
  | .key i => "KEY" ++ toString i.val
  | .salt i => "SALT" ++ toString i.val
  | .pers i => "PERS" ++ toString i.val
  | .status => "STATUS"
  | .engcfg => "ENGCFG"
  | .info => "INFO"
  | .p i => "P" ++ toString i.val
  | .h i => "H" ++ toString i.val
  | .t i => "T" ++ toString i.val
  | .buf i => "BUF" ++ toString i.val
  | .digest i => "DIGEST" ++ toString i.val

/-- A selector operand: the register's name, or `#<number>` for a raw selector (R59). -/
def selText (sel : Byte) : String :=
  match regOfSel sel with
  | some r => regName r
  | none => "#" ++ toString sel.toNat

/-- A command as one line of assembly, numbers in decimal (R59). -/
def asmText : Instr → String
  | .nop => "NOP"
  | .cfgWr sel arg => "CFG_WR " ++ selText sel ++ ", " ++ toString arg.toNat
  | .rd sel => "RD " ++ selText sel
  | .init => "INIT"
  | .reset => "RESET"
  | .write n arg => "WRITE " ++ toString n.toNat ++ ", " ++ toString arg.toNat
  | .sum => "SUM"
  | .clrerr => "CLRERR"

/-- WRITEB: the bytes four at a time, low byte first, then one WRITE for what is left (R60). -/
def writeb : List Byte → List Instr
  | b0 :: b1 :: b2 :: b3 :: rest => .write 4 (wordOfBytes b0 b1 b2 b3) :: writeb rest
  | [b0, b1, b2] => [.write 3 (wordOfBytes b0 b1 b2 0)]
  | [b0, b1] => [.write 2 (wordOfBytes b0 b1 0 0)]
  | [b0] => [.write 1 (wordOfBytes b0 0 0 0)]
  | [] => []

/-- SETKEY: the eight key registers (R60). -/
def setKey (key : Vector Byte 32) : List Instr :=
  (List.finRange 8).map fun i => .cfgWr (selOfReg (.key i)) (le32 key i.val)

/-- SETSALT: the two salt registers, shorter values zero-padded (R60). -/
def setSalt (salt : List Byte) : List Instr :=
  (List.finRange 2).map fun i => .cfgWr (selOfReg (.salt i)) (le32 (padTo 8 salt) i.val)

/-- SETPERS: the two personalization registers, shorter values zero-padded (R60). -/
def setPers (pers : List Byte) : List Instr :=
  (List.finRange 2).map fun i => .cfgWr (selOfReg (.pers i)) (le32 (padTo 8 pers) i.val)

/-- RDDIGEST: the eight digest registers in order (R60). -/
def rdDigest : List Instr :=
  (List.finRange 8).map fun i => .rd (selOfReg (.digest i))

end Sys2Proof.Machine
end

