-- ==== Sys2Proof/Safety.lean ====
section
/-! DEFINITION. What counts as a safe state, in the terms the statements use: the invariants of the spec's prose, the
message a stream stands for (42_streaming.md R84, R95), and the digest BLAKE2s gives that message (R88). -/

namespace Sys2Proof.Machine

/-- A step is safe when the machine goes on. -/
def Goes (o : Host.Outcome State Fault Refusal) : Prop := ∃ t, o = .next t

/-- A command that succeeded with RDATA = `data` and changed nothing else (30_encoding.md R53). -/
def answered (s : State) (data : Word) : State := { s with outstanding := some ⟨0x00, data⟩ }

/-- A command that failed with the code: LASTERR and the response carry it, RDATA = 0, nothing else changed
(60_exceptions.md R105, R106). -/
def failed (code : Byte) (s : State) : State := { s with lastErr := code, outstanding := some ⟨code, 0⟩ }

/-- A staged configuration that INIT accepts: none of the five checks holds (40_parameter_block.md R63). -/
def ConfigLegal (s : State) : Prop :=
  (wordByte s.cfg[0] 0).toNat ≤ 32 ∧ (wordByte s.cfg[0] 1).toNat ≤ 32 ∧ (wordByte s.cfg[0] 2).toNat ≤ 8
    ∧ (wordByte s.cfg[0] 3).toNat ≤ 8 ∧ ¬(s.cfg4.getLsbD 0 = true ∧ 32 < (wordByte s.cfg[1] 3).toNat)

/-- Byte counts that WRITE accepts, one per WRITE (30_encoding.md R56). -/
def CountsLegal (ws : List (Byte × Word)) : Prop := ∀ w ∈ ws, w.1.toNat ≤ 4

/-- The response codes of 60_exceptions.md R104; no other code is ever produced. -/
def listedCodes : List Byte := [0x00, 0x01, 0x02, 0x03, 0x04, 0x10, 0x11, 0x12, 0x13, 0x14]

/-- A response the block may give: a listed code, and RDATA = 0 when it is an error (R104, 30_encoding.md R53). -/
def responseOk (r : Response) : Prop := r.code ∈ listedCodes ∧ (r.code ≠ 0 → r.data = 0)

/-- Every code the state holds is a listed one (R104). -/
def CodesOk (s : State) : Prop :=
  s.lastErr ∈ listedCodes ∧ (∀ r, s.outstanding = some r → responseOk r) ∧ ∀ r ∈ s.delivered, responseOk r

/-- BUFLEN is at most 64 and BUF is zero from BUFLEN on (10_state.md R26, 42_streaming.md R84 a and b). -/
def BufferOk (s : State) : Prop :=
  s.bufLen.toNat ≤ 64 ∧ ∀ i : Fin 64, s.bufLen.toNat ≤ i.val → s.buf[i] = 0

/-- The engine registers (10_state.md R22, R23; 40_parameter_block.md R66): DLEN and KLEN in range, KEYL zero beyond
KLEN, DLEN = 0 exactly when there is no engine, P carrying DLEN and KLEN in bytes 0 and 1 and zero in bytes 12 and 13. -/
def EngineOk (s : State) : Prop :=
  s.dlen.toNat ≤ 32 ∧ s.klen.toNat ≤ 32 ∧ (∀ i : Fin 32, s.klen.toNat ≤ i.val → s.keyl[i] = 0)
    ∧ (s.configured = true ↔ s.dlen ≠ 0)
    ∧ s.p[0].extractLsb' 0 8 = s.dlen.setWidth 8 ∧ s.p[0].extractLsb' 8 8 = s.klen.setWidth 8
    ∧ s.p[3].extractLsb' 0 16 = 0

/-- With no engine, every engine, stream and digest register still has its reset value (60_exceptions.md R109,
43_engine_surface.md R97). -/
def NoEngineOk (s : State) : Prop :=
  s.configured = false →
    s.dlen = 0 ∧ s.klen = 0 ∧ s.keyl = Vector.replicate 32 0 ∧ s.lastNode = false ∧ s.p = Vector.replicate 8 0
      ∧ s.h = Vector.replicate 8 0 ∧ s.t = 0 ∧ s.buf = Vector.replicate 64 0 ∧ s.bufLen = 0
      ∧ s.digest = Vector.replicate 32 0 ∧ s.dvalid = false

/-- DVALID = 1 says that DIGEST is the digest SUM would give now (10_state.md R28). -/
def DigestOk (s : State) : Prop :=
  s.dvalid = true → s.configured = true ∧ s.digest = padTo 32 (finalize s)

/-- The initial chaining value of a parameter block (40_parameter_block.md R68). -/
def initialChain (p : Vector Word 8) : Vector Word 8 :=
  Vector.ofFn fun i => IV[i] ^^^ p[i]

/-- The chaining value after the first `k` blocks of a byte string, each compressed as a non-final block with the count
of the bytes up to its end (42_streaming.md R82, R86). -/
def chainAfter (h : Vector Word 8) (m : List Byte) : Nat → Vector Word 8
  | 0 => h
  | k + 1 =>
    compressF (chainAfter h m k) (padTo 64 ((m.drop (64 * k)).take 64)) (BitVec.ofNat 64 (64 * (k + 1))) 0 0

/-- How many blocks of a string of that length have been compressed when it has all been absorbed: the last block, full
or not, is kept (42_streaming.md R95). -/
def flushCount (len : Nat) : Nat := (len - 1) / 64

/-- The stream registers stand for the byte string `m`: its first blocks are compressed into H and counted in T, the
rest is in BUF (42_streaming.md R84 a to e, R95). -/
def StreamHolds (s : State) (m : List Byte) : Prop :=
  s.t = BitVec.ofNat 64 (64 * flushCount m.length)
    ∧ s.bufLen.toNat = m.length - 64 * flushCount m.length
    ∧ s.buf = padTo 64 (m.drop (64 * flushCount m.length))
    ∧ s.h = chainAfter (initialChain s.p) m (flushCount m.length)

/-- What a keyed engine's stream begins with: the key block (40_parameter_block.md R69). -/
def keyPrefix (s : State) : List Byte :=
  if s.klen = 0 then [] else (keyBlock s).toList

/-- While there is an engine, the stream registers stand for the key block and the bytes written since the last INIT or
RESET (42_streaming.md R84). -/
def HistoryOk (s : State) : Prop :=
  s.configured = true → ∃ msg, StreamHolds s (keyPrefix s ++ msg)

/-- The BLAKE2s digest of a byte string (key block included) under a parameter block: the blocks before the last one
compressed in turn, then the last one, zero-padded, as the final block with the count of all bytes (R82, R88). -/
def blake2s (p : Vector Word 8) (lastNode : Bool) (dlen : Nat) (m : List Byte) : List Byte :=
  let k := flushCount m.length
  let h := compressF (chainAfter (initialChain p) m k) (padTo 64 (m.drop (64 * k))) (BitVec.ofNat 64 m.length)
    0xFFFFFFFF (if lastNode then 0xFFFFFFFF else 0)
  (leBytes h).toList.take dlen

/-- The bytes that a list of WRITE operands (N, ARG) appends (42_streaming.md R87). -/
def writtenBytes (ws : List (Byte × Word)) : List Byte :=
  ws.flatMap fun w => writeBytes w.1.toNat w.2

/-- The WRITE commands of such a list. -/
def writeCmds (ws : List (Byte × Word)) : List Instr :=
  ws.map fun w => .write w.1 w.2

/-- G on one column of the working vector seen as a 4 x 4 matrix (41_compression.md R79). -/
def mixColumn (v : WorkVec) (c : Fin 4) (x y : Word) : WorkVec :=
  mixAt v ⟨c.val, by omega⟩ ⟨c.val + 4, by omega⟩ ⟨c.val + 8, by omega⟩ ⟨c.val + 12, by omega⟩ x y

/-- G on one diagonal of the working vector (41_compression.md R79). -/
def mixDiagonal (v : WorkVec) (c : Fin 4) (x y : Word) : WorkVec :=
  mixAt v ⟨c.val, by omega⟩ ⟨4 + (c.val + 1) % 4, by omega⟩ ⟨8 + (c.val + 2) % 4, by omega⟩
    ⟨12 + (c.val + 3) % 4, by omega⟩ x y

/-- How many responses the block has given or owes: those delivered and the outstanding one (30_encoding.md R50). -/
def responsesOwed (s : State) : Nat := s.delivered.length + s.outstanding.toList.length

/-- One command on the pins: the edge that accepts it, the edges that pass while its response is not taken, and the
edge that takes it (30_encoding.md R50). -/
structure Transaction where
  accept : ClockEdge
  waits : List ClockEdge
  take : ClockEdge
  deriving DecidableEq, Repr

/-- The edges are those of one transaction, whatever else the pins carry: a command offered while cmd_ready = 0 is not
accepted (R50, 70_reset_and_hazards.md R130). -/
def Transaction.legal (x : Transaction) : Bool :=
  x.accept.rstN && x.accept.cmdValid && x.waits.all (fun e => e.rstN && (e.busy || !e.rspReady))
    && x.take.rstN && x.take.rspReady && !x.take.busy

/-- The edges of a transaction in time order. -/
def Transaction.edges (x : Transaction) : List ClockEdge := x.accept :: (x.waits ++ [x.take])

end Sys2Proof.Machine
end

