-- ==== Sys2Proof/WellFormed.lean ====
section
/-! DEFINITION. Which operand values are legal (30_encoding.md R56, R57; the sets of 10_state.md R35). An ill-formed
command is still a command word: it decodes and runs, and its rule answers BAD_SEL or BAD_COUNT. -/

namespace Sys2Proof

/-- The writable set of 10_state.md R35: 0x00..0x04, 0x08..0x13. -/
def selWritable (sel : Byte) : Bool :=
  sel.toNat ≤ 0x04 || (0x08 ≤ sel.toNat && sel.toNat ≤ 0x13)

/-- The readable set of 10_state.md R35: 0x00..0x04, 0x08..0x13, 0x20..0x22, 0x28..0x39, 0x40..0x4F, 0x50..0x57. -/
def selReadable (sel : Byte) : Bool :=
  sel.toNat ≤ 0x04 || (0x08 ≤ sel.toNat && sel.toNat ≤ 0x13) || (0x20 ≤ sel.toNat && sel.toNat ≤ 0x22)
    || (0x28 ≤ sel.toNat && sel.toNat ≤ 0x39) || (0x40 ≤ sel.toNat && sel.toNat ≤ 0x4F)
    || (0x50 ≤ sel.toNat && sel.toNat ≤ 0x57)

/-- A legal byte count of WRITE: 0..4 (R56). -/
def countLegal (n : Byte) : Bool :=
  n.toNat ≤ Config.maxWriteBytes

/-- The operand of the command is one the command accepts (R56). -/
def Instr.wellFormed : Instr → Bool
  | .nop => true
  | .cfgWr sel _ => selWritable sel
  | .rd sel => selReadable sel
  | .init => true
  | .reset => true
  | .write n _ => countLegal n
  | .sum => true
  | .clrerr => true

end Sys2Proof
end

