-- ==== Sys2Proof/Certificates/Slice0/Obligations.lean ====
section
/-! DEFINITION. The statements about BLAKE2S-CORE, one definition each. Numbers are written as the spec writes them;
`failed c s` is "RC = c, RDATA = 0, LASTERR = c, nothing else" and `answered s v` is "RC = OK, RDATA = v, nothing else"
(Sys2Proof/Safety.lean). -/

open Sys2Proof Sys2Proof.Machine

/-! Encoding and decoding (30_encoding.md). -/

/-- Words written out from the patterns of R54 decode to the commands they stand for. -/
def Obligations.SampleWordsDecode : Prop :=
  ∀ arg : Word,
    decode 0b00000000000000000000000000000000 arg = .instr .nop
    ∧ decode 0b00000000000000000001000000000001 arg = .instr (.cfgWr 0x10 arg)
    ∧ decode 0b00000000000000000010001000000010 arg = .instr (.rd 0x22)
    ∧ decode 0b00000000000000000000000000000011 arg = .instr .init
    ∧ decode 0b00000000000000000000000000000100 arg = .instr .reset
    ∧ decode 0b00000000000000000000001100000101 arg = .instr (.write 3 arg)
    ∧ decode 0b00000000000000000000000000000110 arg = .instr .sum
    ∧ decode 0b00000000000000000000000000000111 arg = .instr .clrerr

/-- R54: the opcode map has these eight rows; a word selects exactly one and is that row's command, or selects none and
is ILLEGAL_CMD. -/
def Obligations.DecoderFollowsOpcodeMap : Prop :=
  opcodeMap.map (fun r => (r.mnemonic, r.matchBits, r.mask)) =
      [("NOP", 0x00000000, 0xFFFFFFFF), ("CFG_WR", 0x00000001, 0xFFFF00FF), ("RD", 0x00000002, 0xFFFF00FF),
       ("INIT", 0x00000003, 0xFFFFFFFF), ("RESET", 0x00000004, 0xFFFFFFFF), ("WRITE", 0x00000005, 0xFFFF00FF),
       ("SUM", 0x00000006, 0xFFFFFFFF), ("CLRERR", 0x00000007, 0xFFFFFFFF)]
    ∧ ∀ cmd arg : Word,
        (∃ i, decode cmd arg = .instr i ∧ opcodeMap.filter (rowSelected cmd) = [i.row])
        ∨ (opcodeMap.filter (rowSelected cmd) = [] ∧ ∀ s, transact cmd arg s = .next (failed 0x01 s))

/-- R55: the checks in their order (RSVD, OPC, SEL), each failing one answered ILLEGAL_CMD, and otherwise the dispatch
on OPC with SEL = CMD[15:8]. -/
def Obligations.DecodeChecksInOrder : Prop :=
  ∀ cmd arg : Word,
    let rsvd := cmd.toNat / 2 ^ 16
    let sel := cmd.toNat / 2 ^ 8 % 2 ^ 8
    let opc := cmd.toNat % 2 ^ 8
    (rsvd ≠ 0 → decode cmd arg = .illegal .reservedBits)
    ∧ (rsvd = 0 → 8 ≤ opc → decode cmd arg = .illegal .unknownOpcode)
    ∧ (rsvd = 0 → opc < 8 → opc ≠ 1 → opc ≠ 2 → opc ≠ 5 → sel ≠ 0 → decode cmd arg = .illegal .selNotZero)
    ∧ (rsvd = 0 → opc = 0 → sel = 0 → decode cmd arg = .instr .nop)
    ∧ (rsvd = 0 → opc = 1 → decode cmd arg = .instr (.cfgWr (BitVec.ofNat 8 sel) arg))
    ∧ (rsvd = 0 → opc = 2 → decode cmd arg = .instr (.rd (BitVec.ofNat 8 sel)))
    ∧ (rsvd = 0 → opc = 3 → sel = 0 → decode cmd arg = .instr .init)
    ∧ (rsvd = 0 → opc = 4 → sel = 0 → decode cmd arg = .instr .reset)
    ∧ (rsvd = 0 → opc = 5 → decode cmd arg = .instr (.write (BitVec.ofNat 8 sel) arg))
    ∧ (rsvd = 0 → opc = 6 → sel = 0 → decode cmd arg = .instr .sum)
    ∧ (rsvd = 0 → opc = 7 → sel = 0 → decode cmd arg = .instr .clrerr)
    ∧ (∀ why s, decode cmd arg = .illegal why → transact cmd arg s = .next (failed 0x01 s))
    ∧ (∀ i s, decode cmd arg = .instr i → transact cmd arg s = exec i s)

/-- Decoding what the encoder wrote gives the command back, every operand at every value; also through the bits of
spec/opcode_table.json's numbering, with ARG in bits 63..32 (the model's convention, log entry 5). -/
def Obligations.DecodeOfEncode : Prop :=
  ∀ i : Instr,
    decode (encode i).1 (encode i).2 = .instr i
    ∧ decodeTableWord 64 ((encode i).1.toNat + 2 ^ 32 * (encode i).2.toNat) = some i

/-- Every command has exactly one command word (D2): a word that decodes to a command is that command's own. -/
def Obligations.OneWordPerCommand : Prop :=
  ∀ (cmd arg : Word) (i : Instr),
    decode cmd arg = .instr i → (encode i).1 = cmd ∧ decode cmd (encode i).2 = .instr i

/-! The step and the port (00_scope.md R12, 30_encoding.md R50, 70_reset_and_hazards.md R121, R122). -/

/-- A step at which a command word is accepted runs exactly the decoded command, on the state with that edge consumed.
R12 and R50 say which command runs and where it is accepted; the rest is the model's choice: the edge list (log entry 1),
the whole effect at the accepting edge (log entry 8), and, in the second clause, ARG in bits 63..32 of a table word (log
entry 5) and withFetchWord's delivery of an outstanding response first (log entry 6). -/
def Obligations.StepRunsAcceptedCommand : Prop :=
  (∀ (s : State) (e : ClockEdge) (rest : List ClockEdge) (i : Instr),
      s.edges = e :: rest → e.rstN = true → e.cmdValid = true → s.outstanding = none →
      decode e.cmdWord e.cmdArg = .instr i →
      step s = exec i { s with edges := rest })
    ∧ ∀ (s : State) (nbits w : Nat) (i : Instr),
        decodeTableWord nbits w = some i → step (s.withFetchWord nbits w) = exec i (deliver s)

/-- A step at which a word that is no command is accepted answers ILLEGAL_CMD and changes nothing but LASTERR. R50 says
where it is accepted, R55, R57 and R105 what it answers; that LASTERR and the response take the code at that very edge
is the model's choice (log entry 8), and so is the edge list (log entry 1). -/
def Obligations.StepAnswersIllegalWord : Prop :=
  ∀ (s : State) (e : ClockEdge) (rest : List ClockEdge) (why : Reject),
    s.edges = e :: rest → e.rstN = true → e.cmdValid = true → s.outstanding = none →
    decode e.cmdWord e.cmdArg = .illegal why →
    step s = .next (failed 0x01 { s with edges := rest })

/-- The handshake of R50: while a response is outstanding no command is accepted, and the response is delivered at the
first edge where it is valid and taken; with none outstanding and none offered nothing happens. That LATENCY is a flag of
each edge is the model's deduction (log entry 3); the edge list and the list of delivered responses are the model's own
(log entries 1 and 4). -/
def Obligations.HandshakeHoldsOneCommand : Prop :=
  ∀ (s : State) (e : ClockEdge) (rest : List ClockEdge),
    s.edges = e :: rest → e.rstN = true →
    (s.outstanding = none → e.cmdValid = false → step s = .next { s with edges := rest })
    ∧ ∀ r, s.outstanding = some r →
        cmdReady e s = false
        ∧ (e.rspReady = true → e.busy = false →
            step s = .next { s with edges := rest, outstanding := none, delivered := s.delivered ++ [r] })
        ∧ ((e.rspReady = false ∨ e.busy = true) → step s = .next { s with edges := rest })

/-- R122 (and the values of R13, R121): rst_n = 0 at an edge puts every element at its reset value, discards the
outstanding command without a response, and holds cmd_ready and rsp_valid low, whatever the state was. That the edges to
come and the responses already delivered stay is the model's choice (log entries 1 and 4), no rule of the spec. -/
def Obligations.HardwareResetDiscardsCommand : Prop :=
  ∀ (s : State) (e : ClockEdge) (rest : List ClockEdge),
    s.edges = e :: rest → e.rstN = false →
    cmdReady e s = false ∧ rspValid e s = false
    ∧ step s = .next
        { cfg := Vector.replicate 4 0, cfg4 := 0, key := Vector.replicate 32 0, salt := Vector.replicate 8 0,
          pers := Vector.replicate 8 0, configured := false, dlen := 0, klen := 0, keyl := Vector.replicate 32 0,
          lastNode := false, p := Vector.replicate 8 0, h := Vector.replicate 8 0, t := 0,
          buf := Vector.replicate 64 0, bufLen := 0, digest := Vector.replicate 32 0, dvalid := false, lastErr := 0,
          outstanding := none, edges := rest, delivered := s.delivered }

/-- After hardware reset every readable register reads 0 but INFO, which is 0x00202040 (R13, R30 to R32). -/
def Obligations.ResetRegistersReadZero : Prop :=
  ∀ r : Reg,
    exec (.rd (selOfReg r)) State.reset
      = .next (answered State.reset (if r = .info then 0x00202040 else 0x00000000))

/-- R103: every word in every state gets exactly one response, a listed code with RDATA = 0 when it is an error, and no
step ever stops the machine. -/
def Obligations.EveryCommandAnswers : Prop :=
  (∀ (cmd arg : Word) (s : State),
      ∃ t r, transact cmd arg s = .next t ∧ t.outstanding = some r ∧ responseOk r)
    ∧ ∀ s : State, Goes (step s)

/-- R50: "Each accepted command produces exactly one response" and "Responses come in command order": out of reset a
step adds one response owed exactly when it accepts a command, and responses are delivered in the order they were
owed. The last clause, that none is delivered at an edge that accepts a command, is the model's deduction (log entry 3);
the edge list and the list of delivered responses are the model's own (log entries 1 and 4). -/
def Obligations.OneResponsePerCommand : Prop :=
  ∀ (s t : State) (e : ClockEdge) (rest : List ClockEdge),
    s.edges = e :: rest → e.rstN = true → step s = .next t →
    responsesOwed t = responsesOwed s + (if e.cmdValid = true ∧ cmdReady e s = true then 1 else 0)
    ∧ ((e.cmdValid && cmdReady e s) = false →
        t.delivered ++ t.outstanding.toList = s.delivered ++ s.outstanding.toList)
    ∧ ((e.cmdValid && cmdReady e s) = true → t.delivered = s.delivered)

/-- No result depends on LATENCY (R133) or on what else the pins carry while the block is not ready (R130): running the
edges of a sequence of transactions gives what the commands give at transaction level, one application of R12's step
after another, whatever edges pass in between. The busy flag is the model's form of LATENCY (log entry 3), the
edge list and the delivered list are its own (log entries 1 and 4), and a command's effect lands at its accepting edge
(log entry 8). -/
def Obligations.LatencyChangesNothing : Prop :=
  ∀ (xs : List Transaction) (rest : List ClockEdge) (s : State),
    (∀ x ∈ xs, x.legal = true) → s.outstanding = none → s.edges = xs.flatMap Transaction.edges ++ rest →
    Sys2Proof.core.run (xs.flatMap Transaction.edges).length s
      = serve (xs.map fun x => (x.accept.cmdWord, x.accept.cmdArg)) { s with edges := rest }

/-! The engine surface (43_engine_surface.md, 10_state.md). -/

/-- R98: NOP answers OK with RDATA = 0 and writes no state, whatever ARG; any other word with OPC 0 is ILLEGAL_CMD. -/
def Obligations.NopWritesNothing : Prop :=
  ∀ (s : State) (arg : Word),
    exec .nop s = .next (answered s 0)
    ∧ transact 0x00000000 arg s = .next (answered s 0)
    ∧ ∀ cmd : Word, cmd.toNat % 2 ^ 8 = 0x00 → cmd ≠ 0x00000000 → transact cmd arg s = .next (failed 0x01 s)

/-- R99: CLRERR sets LASTERR to 0x00 and writes nothing else, whatever ARG; any other word with OPC 7 is ILLEGAL_CMD
and leaves LASTERR = 0x01. -/
def Obligations.ClrerrClearsLastErr : Prop :=
  ∀ (s : State) (arg : Word),
    exec .clrerr s = .next (answered { s with lastErr := 0x00 } 0)
    ∧ transact 0x00000007 arg s = .next (answered { s with lastErr := 0x00 } 0)
    ∧ ∀ cmd : Word, cmd.toNat % 2 ^ 8 = 0x07 → cmd ≠ 0x00000007 → transact cmd arg s = .next (failed 0x01 s)

/-- R97: RD returns the register at each mapped selector and writes nothing; every other selector is BAD_SEL, and a
word with reserved bits is ILLEGAL_CMD; BUFi wholly beyond BUFLEN reads 0 where R84 (a, b) holds, which
StepKeepsRegistersLegal says every step keeps. -/
def Obligations.RdReadsEveryRegister : Prop :=
  ∀ s : State,
    (∀ i : Fin 4, exec (.rd (BitVec.ofNat 8 (0x00 + i))) s = .next (answered s s.cfg[i]))
    ∧ exec (.rd 0x04) s = .next (answered s (BitVec.ofNat 32 s.cfg4.toNat))
    ∧ (∀ i : Fin 8, exec (.rd (BitVec.ofNat 8 (0x08 + i))) s = .next (answered s 0x00000000))
    ∧ (∀ i : Fin 2, ∃ v, exec (.rd (BitVec.ofNat 8 (0x10 + i))) s = .next (answered s v)
        ∧ ∀ j : Fin 4, wordByte v j = s.salt[4 * i.val + j.val])
    ∧ (∀ i : Fin 2, ∃ v, exec (.rd (BitVec.ofNat 8 (0x12 + i))) s = .next (answered s v)
        ∧ ∀ j : Fin 4, wordByte v j = s.pers[4 * i.val + j.val])
    ∧ exec (.rd 0x20) s = .next (answered s (statusWord s))
    ∧ exec (.rd 0x21) s = .next (answered s (engcfgWord s))
    ∧ exec (.rd 0x22) s = .next (answered s 0x00202040)
    ∧ (∀ i : Fin 8, exec (.rd (BitVec.ofNat 8 (0x28 + i))) s = .next (answered s s.p[i]))
    ∧ (∀ i : Fin 8, exec (.rd (BitVec.ofNat 8 (0x30 + i))) s = .next (answered s s.h[i]))
    ∧ exec (.rd 0x38) s = .next (answered s (BitVec.ofNat 32 (s.t.toNat % 2 ^ 32)))
    ∧ exec (.rd 0x39) s = .next (answered s (BitVec.ofNat 32 (s.t.toNat / 2 ^ 32)))
    ∧ (∀ i : Fin 16, ∃ v, exec (.rd (BitVec.ofNat 8 (0x40 + i))) s = .next (answered s v)
        ∧ ∀ j : Fin 4, wordByte v j = s.buf[4 * i.val + j.val])
    ∧ (∀ i : Fin 8, ∃ v, exec (.rd (BitVec.ofNat 8 (0x50 + i))) s = .next (answered s v)
        ∧ ∀ j : Fin 4, wordByte v j = s.digest[4 * i.val + j.val])
    ∧ (∀ sel : Byte, (0x05 ≤ sel.toNat ∧ sel.toNat ≤ 0x07) ∨ (0x14 ≤ sel.toNat ∧ sel.toNat ≤ 0x1F)
          ∨ (0x23 ≤ sel.toNat ∧ sel.toNat ≤ 0x27) ∨ (0x3A ≤ sel.toNat ∧ sel.toNat ≤ 0x3F) ∨ 0x58 ≤ sel.toNat →
        exec (.rd sel) s = .next (failed 0x02 s))
    ∧ (BufferOk s → ∀ i : Fin 16, s.bufLen.toNat ≤ 4 * i.val →
        exec (.rd (BitVec.ofNat 8 (0x40 + i))) s = .next (answered s 0x00000000))
    ∧ ∀ cmd arg : Word, cmd.toNat % 2 ^ 8 = 0x02 → cmd.toNat / 2 ^ 16 ≠ 0 → transact cmd arg s = .next (failed 0x01 s)

/-- R30: the bits of STATUS, its reset value, and BAD_SEL for writing it. -/
def Obligations.StatusRegisterBits : Prop :=
  (∀ s : State, ∃ v, exec (.rd 0x20) s = .next (answered s v)
      ∧ v.getLsbD 0 = s.configured ∧ v.getLsbD 1 = s.dvalid ∧ v.extractLsb' 2 6 = 0
      ∧ v.extractLsb' 8 8 = s.lastErr ∧ v.extractLsb' 16 7 = s.bufLen ∧ v.extractLsb' 23 9 = 0)
    ∧ exec (.rd 0x20) State.reset = .next (answered State.reset 0x00000000)
    ∧ ∀ (s : State) (arg : Word), exec (.cfgWr 0x20 arg) s = .next (failed 0x02 s)

/-- R31: the bits of ENGCFG and its reset value. -/
def Obligations.EngcfgRegisterBits : Prop :=
  (∀ s : State, ∃ v, exec (.rd 0x21) s = .next (answered s v)
      ∧ (v.extractLsb' 0 8).toNat = s.dlen.toNat ∧ (v.extractLsb' 8 8).toNat = s.klen.toNat
      ∧ v.getLsbD 16 = s.lastNode ∧ v.extractLsb' 17 15 = 0)
    ∧ exec (.rd 0x21) State.reset = .next (answered State.reset 0x00000000)

/-- The staged key and the engine's key copy reach no RD response (R19, R22): two states that differ only in them give
the same answer to every RD. BUF, which holds the key block of a fresh keyed engine, is not covered (log entry 9). -/
def Obligations.RdHidesKeyRegisters : Prop :=
  ∀ (s : State) (sel : Byte) (k l : Vector Byte 32),
    ∃ t, exec (.rd sel) s = .next t ∧ exec (.rd sel) { s with key := k, keyl := l } = .next { t with key := k, keyl := l }

/-! The parameter block (40_parameter_block.md). -/

/-- R61: CFG_WR stores ARG in the staging register its selector names and changes nothing else; every other selector is
BAD_SEL, and a word with reserved bits is ILLEGAL_CMD. -/
def Obligations.CfgWrStoresStagingRegister : Prop :=
  ∀ (s : State) (a : Word),
    (∀ i : Fin 4, exec (.cfgWr (BitVec.ofNat 8 (0x00 + i)) a) s = .next (answered { s with cfg := s.cfg.set i a } 0))
    ∧ exec (.cfgWr 0x04 a) s = .next (answered { s with cfg4 := BitVec.ofNat 2 a.toNat } 0)
    ∧ (∀ i : Fin 8, ∃ k : Vector Byte 32,
        exec (.cfgWr (BitVec.ofNat 8 (0x08 + i)) a) s = .next (answered { s with key := k } 0)
        ∧ ∀ j : Fin 32, k[j] = if j.val / 4 = i.val then wordByte a (j.val % 4) else s.key[j])
    ∧ (∀ i : Fin 2, ∃ k : Vector Byte 8,
        exec (.cfgWr (BitVec.ofNat 8 (0x10 + i)) a) s = .next (answered { s with salt := k } 0)
        ∧ ∀ j : Fin 8, k[j] = if j.val / 4 = i.val then wordByte a (j.val % 4) else s.salt[j])
    ∧ (∀ i : Fin 2, ∃ k : Vector Byte 8,
        exec (.cfgWr (BitVec.ofNat 8 (0x12 + i)) a) s = .next (answered { s with pers := k } 0)
        ∧ ∀ j : Fin 8, k[j] = if j.val / 4 = i.val then wordByte a (j.val % 4) else s.pers[j])
    ∧ (∀ sel : Byte, (0x05 ≤ sel.toNat ∧ sel.toNat ≤ 0x07) ∨ 0x14 ≤ sel.toNat →
        exec (.cfgWr sel a) s = .next (failed 0x02 s))
    ∧ ∀ cmd : Word, cmd.toNat % 2 ^ 8 = 0x01 → cmd.toNat / 2 ^ 16 ≠ 0 → transact cmd a s = .next (failed 0x01 s)

/-- What CFG_WR stored, RD of the same selector returns: whole words for CFG0..3, SALT and PERS, bits 1:0 for CFG4, 0
for KEY (R14 to R20); RD of any other staging selector returns what it returned before. -/
def Obligations.CfgWrReadsBack : Prop :=
  ∀ (s : State) (sel : Byte) (a : Word), selWritable sel = true →
    ∃ t, exec (.cfgWr sel a) s = .next t
      ∧ exec (.rd sel) t = .next (answered t
          (if sel = 0x04 then a &&& 3 else if 0x08 ≤ sel.toNat ∧ sel.toNat ≤ 0x0F then 0 else a))
      ∧ ∀ other : Byte, selReadable other = true → other ≠ sel →
          ∃ v, exec (.rd other) s = .next (answered s v) ∧ exec (.rd other) t = .next (answered t v)

/-- R63 and R70: INIT reports the first of the five configuration checks that holds and then changes nothing but
LASTERR; with none of them it constructs the engine. -/
def Obligations.InitChecksInOrder : Prop :=
  ∀ s : State,
    let size := (wordByte s.cfg[0] 0).toNat
    let keyLen := (wordByte s.cfg[0] 1).toNat
    let saltLen := (wordByte s.cfg[0] 2).toNat
    let persLen := (wordByte s.cfg[0] 3).toNat
    let badInner := s.cfg4.getLsbD 0 = true ∧ 32 < (wordByte s.cfg[1] 3).toNat
    (32 < size → exec .init s = .next (failed 0x10 s))
    ∧ (size ≤ 32 → 32 < keyLen → exec .init s = .next (failed 0x11 s))
    ∧ (size ≤ 32 → keyLen ≤ 32 → 8 < saltLen → exec .init s = .next (failed 0x12 s))
    ∧ (size ≤ 32 → keyLen ≤ 32 → saltLen ≤ 8 → 8 < persLen → exec .init s = .next (failed 0x13 s))
    ∧ (size ≤ 32 → keyLen ≤ 32 → saltLen ≤ 8 → persLen ≤ 8 → badInner → exec .init s = .next (failed 0x14 s))
    ∧ (size ≤ 32 → keyLen ≤ 32 → saltLen ≤ 8 → persLen ≤ 8 → ¬badInner →
        ∃ t, exec .init s = .next t ∧ t.configured = true ∧ t.outstanding = some ⟨0x00, 0⟩ ∧ t.lastErr = s.lastErr)

/-- R64, R65 and R68: the engine a legal INIT builds, every field of it, the initial chaining value IV ^ P, T = 0 and
DVALID = 0; the staging registers, DIGEST and LASTERR keep their values. -/
def Obligations.InitBuildsEngine : Prop :=
  ∀ s : State, ConfigLegal s →
    let size := (wordByte s.cfg[0] 0).toNat
    let keyLen := (wordByte s.cfg[0] 1).toNat
    let saltLen := (wordByte s.cfg[0] 2).toNat
    let persLen := (wordByte s.cfg[0] 3).toNat
    let tree := s.cfg4.getLsbD 0
    let fanout := if tree then (wordByte s.cfg[1] 0).toNat else 1
    let depth := if tree then (wordByte s.cfg[1] 1).toNat else 1
    let ndepth := if tree then (wordByte s.cfg[1] 2).toNat else 0
    let inner := if tree then (wordByte s.cfg[1] 3).toNat else 0
    ∃ t, exec .init s = .next t
      ∧ t.dlen.toNat = (if size = 0 then 32 else size) ∧ t.klen.toNat = keyLen
      ∧ t.lastNode = (tree && s.cfg4.getLsbD 1)
      ∧ (∀ i : Fin 32, t.keyl[i] = if i.val < keyLen then s.key[i] else 0x00)
      ∧ t.p[0].toNat = t.dlen.toNat + keyLen * 2 ^ 8 + fanout * 2 ^ 16 + depth * 2 ^ 24
      ∧ t.p[1] = (if tree then s.cfg[2] else 0) ∧ t.p[2] = (if tree then s.cfg[3] else 0)
      ∧ t.p[3].toNat = ndepth * 2 ^ 16 + inner * 2 ^ 24
      ∧ (∀ k : Fin 8, wordByte t.p[4 + k.val / 4] (k.val % 4) = if k.val < saltLen then s.salt[k] else 0x00)
      ∧ (∀ k : Fin 8, wordByte t.p[6 + k.val / 4] (k.val % 4) = if k.val < persLen then s.pers[k] else 0x00)
      ∧ (∀ i : Fin 8, t.h[i] = IV[i] ^^^ t.p[i])
      ∧ t = { s with configured := true, dlen := t.dlen, klen := t.klen, keyl := t.keyl, lastNode := t.lastNode,
                     p := t.p, h := t.h, t := 0, buf := t.buf, bufLen := t.bufLen, dvalid := false,
                     outstanding := some ⟨0x00, 0⟩ }

/-- R66: the latched P, byte by byte, is the parameter block of the staged configuration, node_offset's upper bytes
12..13 being 0x00. -/
def Obligations.ParameterBlockLayout : Prop :=
  ∀ s : State, ConfigLegal s →
    let tree := s.cfg4.getLsbD 0
    let size := wordByte s.cfg[0] 0
    let salt (k : Fin 8) : Byte := if k.val < (wordByte s.cfg[0] 2).toNat then s.salt[k] else 0x00
    let pers (k : Fin 8) : Byte := if k.val < (wordByte s.cfg[0] 3).toNat then s.pers[k] else 0x00
    let leaf := if tree then s.cfg[2] else 0
    let offset := if tree then s.cfg[3] else 0
    ∃ t, exec .init s = .next t
      ∧ leBytes t.p =
          #v[if size = 0 then 32 else size, wordByte s.cfg[0] 1,
             if tree then wordByte s.cfg[1] 0 else 1, if tree then wordByte s.cfg[1] 1 else 1,
             wordByte leaf 0, wordByte leaf 1, wordByte leaf 2, wordByte leaf 3,
             wordByte offset 0, wordByte offset 1, wordByte offset 2, wordByte offset 3, 0x00, 0x00,
             if tree then wordByte s.cfg[1] 2 else 0, if tree then wordByte s.cfg[1] 3 else 0,
             salt 0, salt 1, salt 2, salt 3, salt 4, salt 5, salt 6, salt 7,
             pers 0, pers 1, pers 2, pers 3, pers 4, pers 5, pers 6, pers 7]

/-- R69: a keyed engine's stream begins with the key block, KEYL's first KLEN bytes zero-padded to 64 bytes, in BUF
with BUFLEN = 64, after INIT and again after RESET; an unkeyed engine's begins empty. -/
def Obligations.KeyBlockOpensStream : Prop :=
  ∀ s : State,
    (ConfigLegal s →
      ∃ t, exec .init s = .next t
        ∧ ((wordByte s.cfg[0] 1).toNat = 0 → t.bufLen = 0 ∧ t.buf = Vector.replicate 64 0)
        ∧ (0 < (wordByte s.cfg[0] 1).toNat → t.bufLen = 64 ∧ ∀ j : Fin 64,
            t.buf[j] = if h : j.val < 32 then (if j.val < (wordByte s.cfg[0] 1).toNat then s.key[j.val] else 0) else 0))
    ∧ (s.configured = true → EngineOk s →
        ∃ t, exec .reset s = .next t
          ∧ (s.klen = 0 → t.bufLen = 0 ∧ t.buf = Vector.replicate 64 0)
          ∧ (s.klen ≠ 0 → t.bufLen = 64 ∧ ∀ j : Fin 64,
              t.buf[j] = if h : j.val < 32 then (if j.val < s.klen.toNat then s.keyl[j.val] else 0) else 0))

/-! Streaming (42_streaming.md). -/

/-- WRITE's checks in order, its response and its frame (R87): BAD_COUNT before NOT_CONFIGURED; otherwise RDATA = N,
DVALID falls when N >= 1, and nothing outside H, T, BUF, BUFLEN and DVALID changes. -/
def Obligations.WriteChecksAndFrame : Prop :=
  ∀ (s : State) (n : Byte) (arg : Word),
    (4 < n.toNat → exec (.write n arg) s = .next (failed 0x03 s))
    ∧ (n.toNat ≤ 4 → s.configured = false → exec (.write n arg) s = .next (failed 0x04 s))
    ∧ (n.toNat ≤ 4 → s.configured = true →
        ∃ t, exec (.write n arg) s = .next t
          ∧ t = { s with h := t.h, t := t.t, buf := t.buf, bufLen := t.bufLen,
                         dvalid := if n = 0 then s.dvalid else false,
                         outstanding := some ⟨0x00, BitVec.ofNat 32 n.toNat⟩ })

/-- WRITE of no bytes is a zero-length chunk: it changes nothing but the response (R87). -/
def Obligations.WriteOfNoBytesChangesNothing : Prop :=
  ∀ (s : State) (arg : Word), s.configured = true → exec (.write 0 arg) s = .next (answered s 0)

/-- A WRITE that fits in the buffer, filling it to 64 bytes at most, only stores its bytes there, byte k = ARG[8k+7:8k]
at BUF[BUFLEN + k]; it compresses nothing (R86, R87). -/
def Obligations.WriteWithRoomOnlyBuffers : Prop :=
  ∀ (s : State) (n : Byte) (arg : Word),
    s.configured = true → n.toNat ≤ 4 → s.bufLen.toNat + n.toNat ≤ 64 →
    ∃ t, exec (.write n arg) s = .next t
      ∧ t.h = s.h ∧ t.t = s.t ∧ t.bufLen.toNat = s.bufLen.toNat + n.toNat
      ∧ ∀ i : Fin 64, t.buf[i] =
          if s.bufLen.toNat ≤ i.val ∧ i.val < s.bufLen.toNat + n.toNat then wordByte arg (i.val - s.bufLen.toNat)
          else s.buf[i]

/-- A WRITE that overruns the buffer flushes it exactly once (R86): the block is BUF completed by the first bytes of
ARG, T counts its 64 bytes and F sees that count with both flags 0, and the rest of ARG starts an otherwise zero
buffer. -/
def Obligations.WriteFlushesOnce : Prop :=
  ∀ (s : State) (n : Byte) (arg : Word),
    s.configured = true → n.toNat ≤ 4 → s.bufLen.toNat ≤ 64 → 64 < s.bufLen.toNat + n.toNat →
    let block : Vector Byte 64 := Vector.ofFn fun i =>
      if i.val < s.bufLen.toNat then s.buf[i] else wordByte arg (i.val - s.bufLen.toNat)
    ∃ t, exec (.write n arg) s = .next t
      ∧ t.t = s.t + 64 ∧ t.h = compressF s.h block (s.t + 64) 0x00000000 0x00000000
      ∧ t.bufLen.toNat = s.bufLen.toNat + n.toNat - 64
      ∧ ∀ i : Fin 64, t.buf[i] =
          if i.val < s.bufLen.toNat + n.toNat - 64 then wordByte arg (64 - s.bufLen.toNat + i.val) else 0x00

/-- ARG's unused bits have no effect (R52): WRITE ignores the bytes above the first N, and every command but CFG_WR and
WRITE ignores ARG. -/
def Obligations.UnusedArgBitsIgnored : Prop :=
  (∀ (s : State) (n : Byte) (a b : Word),
      (∀ k, k < n.toNat → wordByte a k = wordByte b k) → exec (.write n a) s = exec (.write n b) s)
    ∧ ∀ cmd a b : Word, cmd.toNat % 2 ^ 8 ≠ 0x01 → cmd.toNat % 2 ^ 8 ≠ 0x05 → decode cmd a = decode cmd b

/-- R85: the counter grows by 64 modulo 2^64 at a flush; T0 carries into T1 when T0 + 64 reaches 2^32; past 2^64 - 1 it
wraps, with no error and no flag. -/
def Obligations.CounterCarriesAndWraps : Prop :=
  ∀ (s : State) (n : Byte) (arg : Word),
    s.configured = true → n.toNat ≤ 4 → s.bufLen.toNat ≤ 64 → 64 < s.bufLen.toNat + n.toNat →
    ∃ t, exec (.write n arg) s = .next t
      ∧ t.t.toNat = (s.t.toNat + 64) % 2 ^ 64
      ∧ t.t.toNat % 2 ^ 32 = (s.t.toNat % 2 ^ 32 + 64) % 2 ^ 32
      ∧ t.t.toNat / 2 ^ 32 = (s.t.toNat / 2 ^ 32 + (if 2 ^ 32 ≤ s.t.toNat % 2 ^ 32 + 64 then 1 else 0)) % 2 ^ 32
      ∧ t.lastErr = s.lastErr ∧ t.outstanding = some ⟨0x00, BitVec.ofNat 32 n.toNat⟩

/-- R88 and R89: SUM writes DIGEST and DVALID only. DIGEST is the first DLEN bytes of LEBYTES of F of the retained
bytes zero-padded, with the unpadded count, f0 all-ones and f1 all-ones for a last node, and zeros from DLEN on; RDATA
is DLEN. Without an engine it is NOT_CONFIGURED; any other word with OPC 6 is ILLEGAL_CMD. -/
def Obligations.SumWritesDigest : Prop :=
  ∀ s : State,
    (s.configured = false → exec .sum s = .next (failed 0x04 s))
    ∧ (s.configured = true →
        let block : Vector Byte 64 := Vector.ofFn fun i => if i.val < s.bufLen.toNat then s.buf[i] else 0x00
        let h' := compressF s.h block (s.t + BitVec.ofNat 64 s.bufLen.toNat) 0xFFFFFFFF
          (if s.lastNode = true then 0xFFFFFFFF else 0x00000000)
        let d : Vector Byte 32 := Vector.ofFn fun i =>
          if i.val < s.dlen.toNat then wordByte h'[i.val / 4] (i.val % 4) else 0x00
        exec .sum s = .next (answered { s with digest := d, dvalid := true } (BitVec.ofNat 32 s.dlen.toNat)))
    ∧ ∀ cmd arg : Word, cmd.toNat % 2 ^ 8 = 0x06 → cmd ≠ 0x00000006 → transact cmd arg s = .next (failed 0x01 s)

/-- A second SUM straight after the first changes nothing at all (R93). -/
def Obligations.SumIsIdempotent : Prop :=
  ∀ s t : State, exec .sum s = .next t → exec .sum t = .next t

/-- SUM does not end or disturb the message (R93): a WRITE after it gives the state the WRITE gives without it, but for
DIGEST, which keeps SUM's bytes, and DVALID. -/
def Obligations.SumDoesNotDisturbStream : Prop :=
  ∀ (s : State) (n : Byte) (arg : Word), s.configured = true →
    ∃ t u v, exec .sum s = .next t ∧ exec (.write n arg) t = .next u ∧ exec (.write n arg) s = .next v
      ∧ u = { v with digest := t.digest, dvalid := decide (n.toNat = 0 ∨ 4 < n.toNat) }

/-- R91: RESET restarts the stream from the latched engine and touches nothing else; without an engine it is
NOT_CONFIGURED; any other word with OPC 4 is ILLEGAL_CMD. -/
def Obligations.ResetRestartsStream : Prop :=
  ∀ s : State,
    (s.configured = false → exec .reset s = .next (failed 0x04 s))
    ∧ (s.configured = true →
        let keyed : Vector Byte 64 := Vector.ofFn fun j => if h : j.val < 32 then s.keyl[j.val] else 0x00
        exec .reset s = .next (answered
          { s with
            h := Vector.ofFn fun i => IV[i] ^^^ s.p[i]
            t := 0
            buf := if 0 < s.klen.toNat then keyed else Vector.replicate 64 0
            bufLen := if 0 < s.klen.toNat then 64 else 0
            dvalid := false } 0))
    ∧ ∀ cmd arg : Word, cmd.toNat % 2 ^ 8 = 0x04 → cmd ≠ 0x00000004 → transact cmd arg s = .next (failed 0x01 s)

/-- Streaming equivalence (R92): two sequences of WRITEs that carry the same bytes, however split, zero-length chunks
included, leave the same state (but for the last response), and SUM then gives the same. -/
def Obligations.StreamingEquivalence : Prop :=
  ∀ (s : State) (ws us : List (Byte × Word)),
    s.configured = true → CountsLegal ws → CountsLegal us → writtenBytes ws = writtenBytes us →
    ∃ t u, execAll (writeCmds ws) s = .next t ∧ execAll (writeCmds us) s = .next u
      ∧ { t with outstanding := none } = { u with outstanding := none } ∧ exec .sum t = exec .sum u

/-- Reset equivalence (R94): writing a, RESET, writing b and SUM ends in the very state that INIT, writing b and SUM
ends in, keyed or not. -/
def Obligations.ResetEquivalence : Prop :=
  ∀ (s : State) (a b : List (Byte × Word)),
    ConfigLegal s → CountsLegal a → CountsLegal b →
    ∃ u, execAll (.init :: (writeCmds a ++ .reset :: (writeCmds b ++ [.sum]))) s = .next u
      ∧ execAll (.init :: (writeCmds b ++ [.sum])) s = .next u

/-- A WRITE appends its N bytes to the message the stream registers stand for (R84). -/
def Obligations.WriteExtendsMessage : Prop :=
  ∀ (s : State) (n : Byte) (arg : Word) (m : List Byte),
    s.configured = true → n.toNat ≤ 4 → StreamHolds s m →
    ∃ t, exec (.write n arg) s = .next t ∧ StreamHolds t (m ++ writeBytes n.toNat arg)

/-- The whole block computes BLAKE2s (R88, R92, R95): under any configuration INIT accepts, and any sequence of WRITEs,
SUM leaves in DIGEST the BLAKE2s digest of the key block and the bytes written, under the parameter block INIT built. -/
def Obligations.EngineComputesBlake2s : Prop :=
  ∀ (s : State) (ws : List (Byte × Word)), ConfigLegal s → CountsLegal ws →
    ∃ t u, exec .init s = .next t ∧ execAll (.init :: (writeCmds ws ++ [.sum])) s = .next u
      ∧ u.digest = padTo 32 (blake2s t.p t.lastNode t.dlen.toNat (keyPrefix t ++ writtenBytes ws))
      ∧ u.dvalid = true ∧ u.outstanding = some ⟨0x00, BitVec.ofNat 32 t.dlen.toNat⟩

/-- The boundary behaviour (R95): after INIT and L message bytes (64 more for a keyed engine), T = 64 floor((L-1)/64)
and BUFLEN = L - T, so at least 1 and at most 64 when L is not 0. -/
def Obligations.BoundaryBehaviour : Prop :=
  ∀ (s : State) (ws : List (Byte × Word)), ConfigLegal s → CountsLegal ws →
    let len := (if (wordByte s.cfg[0] 1).toNat = 0 then 0 else 64) + (writtenBytes ws).length
    ∃ t, execAll (.init :: writeCmds ws) s = .next t
      ∧ t.t = BitVec.ofNat 64 (64 * ((len - 1) / 64)) ∧ t.bufLen.toNat = len - 64 * ((len - 1) / 64)
      ∧ t.bufLen.toNat ≤ 64 ∧ (len ≠ 0 → 1 ≤ t.bufLen.toNat)

/-! The compression function (41_compression.md). -/

/-- rotr is a rotation toward bit 0 (00_scope.md R9): bit i of the result is bit (i + n) mod 32 of the word. -/
def Obligations.RotrMovesTowardBitZero : Prop :=
  ∀ (x : Word) (n i : Nat), 0 < n → n < 32 → i < 32 → (rotr x n).getLsbD i = x.getLsbD ((i + n) % 32)

/-- R74, R76, R77 and R81: the eight IV words, the message words as little-endian words of the block, the working vector
before the rounds, and the output words after them. -/
def Obligations.WorkingVectorAndOutput : Prop :=
  IV = #v[0x6A09E667, 0xBB67AE85, 0x3C6EF372, 0xA54FF53A, 0x510E527F, 0x9B05688C, 0x1F83D9AB, 0x5BE0CD19]
    ∧ (∀ (block : Vector Byte 64) (i : Fin 16) (j : Fin 4),
        wordByte (messageWords block)[i] j = block[4 * i.val + j.val])
    ∧ ∀ (h : Vector Word 8) (block : Vector Byte 64) (t : Count) (f0 f1 : Word) (i : Fin 8),
      (workInit h t f0 f1)[i.val] = h[i]
      ∧ (workInit h t f0 f1)[i.val + 8] = (IV[i] ^^^
          (if i = 4 then BitVec.ofNat 32 t.toNat else if i = 5 then BitVec.ofNat 32 (t.toNat / 2 ^ 32)
           else if i = 6 then f0 else if i = 7 then f1 else 0))
      ∧ (compressF h block t f0 f1)[i] =
          h[i] ^^^ (mixRounds (messageWords block) (workInit h t f0 f1))[i.val]
            ^^^ (mixRounds (messageWords block) (workInit h t f0 f1))[i.val + 8]

/-- The four column calls of a round touch disjoint words, as do the four diagonal calls: any two of a group may change
places (R79). -/
def Obligations.GroupedMixesCommute : Prop :=
  ∀ (v : WorkVec) (c d : Fin 4) (x y x' y' : Word), c ≠ d →
    mixColumn (mixColumn v c x y) d x' y' = mixColumn (mixColumn v d x' y') c x y
    ∧ mixDiagonal (mixDiagonal v c x y) d x' y' = mixDiagonal (mixDiagonal v d x' y') c x y

/-- R75, R78, R79 and R80: the eight steps of G, with rotations right by 16, 12, 8 and 7; a round as its eight calls one
after another, and as two groups of four calls that each read the words before the group; every entry of SIGMA, each row
a permutation of 0..15; and the ten rounds, rows 0 to 9 in order and nothing else. -/
def Obligations.RoundIsColumnsThenDiagonals : Prop :=
  (∀ a b c d x y : Word,
      let a₁ := a + b + x
      let d₁ := (d ^^^ a₁).rotateRight 16
      let c₁ := c + d₁
      let b₁ := (b ^^^ c₁).rotateRight 12
      let a₂ := a₁ + b₁ + y
      let d₂ := (d₁ ^^^ a₂).rotateRight 8
      let c₂ := c₁ + d₂
      let b₂ := (b₁ ^^^ c₂).rotateRight 7
      mixG ⟨a, b, c, d⟩ x y = ⟨a₂, b₂, c₂, d₂⟩)
    ∧ (∀ (m : Vector Word 16) (v : WorkVec) (row : Schedule),
      let w (k : Fin 16) : Word := m[row[k]]
      let cols := mixColumn (mixColumn (mixColumn (mixColumn v 0 (w 0) (w 1)) 1 (w 2) (w 3)) 2 (w 4) (w 5)) 3 (w 6) (w 7)
      mixRound m v row = mixDiagonal (mixDiagonal (mixDiagonal (mixDiagonal cols 0 (w 8) (w 9)) 1 (w 10) (w 11)) 2
        (w 12) (w 13)) 3 (w 14) (w 15))
    ∧ (∀ (m : Vector Word 16) (v : WorkVec) (row : Schedule),
      let w (k : Fin 16) : Word := m[row[k]]
      let q0 := mixG ⟨v[0], v[4], v[8], v[12]⟩ (w 0) (w 1)
      let q1 := mixG ⟨v[1], v[5], v[9], v[13]⟩ (w 2) (w 3)
      let q2 := mixG ⟨v[2], v[6], v[10], v[14]⟩ (w 4) (w 5)
      let q3 := mixG ⟨v[3], v[7], v[11], v[15]⟩ (w 6) (w 7)
      let r0 := mixG ⟨q0.a, q1.b, q2.c, q3.d⟩ (w 8) (w 9)
      let r1 := mixG ⟨q1.a, q2.b, q3.c, q0.d⟩ (w 10) (w 11)
      let r2 := mixG ⟨q2.a, q3.b, q0.c, q1.d⟩ (w 12) (w 13)
      let r3 := mixG ⟨q3.a, q0.b, q1.c, q2.d⟩ (w 14) (w 15)
      mixRound m v row = #v[r0.a, r1.a, r2.a, r3.a, r3.b, r0.b, r1.b, r2.b, r2.c, r3.c, r0.c, r1.c, r1.d, r2.d, r3.d,
        r0.d])
    ∧ (SIGMA.toList.map fun row => row.toList.map Fin.val) =
      [[0, 1, 2, 3, 4, 5, 6, 7, 8, 9, 10, 11, 12, 13, 14, 15],
       [14, 10, 4, 8, 9, 15, 13, 6, 1, 12, 0, 2, 11, 7, 5, 3],
       [11, 8, 12, 0, 5, 2, 15, 13, 10, 14, 3, 6, 7, 1, 9, 4],
       [7, 9, 3, 1, 13, 12, 11, 14, 2, 6, 5, 10, 4, 0, 15, 8],
       [9, 0, 5, 7, 2, 4, 10, 15, 14, 1, 11, 12, 6, 8, 3, 13],
       [2, 12, 6, 10, 0, 11, 8, 3, 4, 13, 7, 5, 15, 14, 1, 9],
       [12, 5, 1, 15, 14, 13, 4, 10, 0, 7, 6, 3, 9, 2, 8, 11],
       [13, 11, 7, 14, 12, 1, 3, 9, 5, 0, 15, 4, 8, 6, 2, 10],
       [6, 15, 14, 9, 11, 3, 0, 8, 12, 2, 13, 7, 1, 4, 10, 5],
       [10, 2, 8, 4, 7, 6, 1, 5, 15, 11, 9, 14, 3, 12, 13, 0]]
    ∧ (∀ (r : Fin 10) (k : Fin 16), ∃ j : Fin 16, SIGMA[r][j] = k)
    ∧ ∀ (m : Vector Word 16) (v : WorkVec),
      mixRounds m v = (List.finRange 10).foldl (fun u r => mixRound m u SIGMA[r]) v

/-! Invariants. -/

/-- The state after hardware reset meets every invariant below. -/
def Obligations.ResetMeetsInvariants : Prop :=
  BufferOk State.reset ∧ EngineOk State.reset ∧ NoEngineOk State.reset ∧ DigestOk State.reset ∧ CodesOk State.reset
    ∧ HistoryOk State.reset

/-- Every step keeps the buffer and the engine registers legal (R22, R26, R84): BUFLEN at most 64 and BUF zero from it
on, DLEN and KLEN in range, KEYL zero beyond KLEN, P carrying them, and everything at its reset value while there is no
engine. -/
def Obligations.StepKeepsRegistersLegal : Prop :=
  ∀ s t : State, BufferOk s → EngineOk s → NoEngineOk s → step s = .next t →
    BufferOk t ∧ EngineOk t ∧ NoEngineOk t

/-- Every step keeps the meaning of DVALID (R28): while it is 1, DIGEST is the digest SUM would give now. -/
def Obligations.StepKeepsDigestCurrent : Prop :=
  ∀ s t : State, DigestOk s → step s = .next t → DigestOk t

/-- Every step keeps R84: the stream registers stand for the key block and the bytes written since the last INIT or
RESET. -/
def Obligations.StepKeepsHistory : Prop :=
  ∀ s t : State, HistoryOk s → step s = .next t → HistoryOk t

/-- Codes outside R104's list are never produced: every step keeps LASTERR and every response among the listed ones. -/
def Obligations.StepKeepsCodesListed : Prop :=
  ∀ s t : State, CodesOk s → step s = .next t → CodesOk t

/-! Rules of the whole machine. -/

/-- R105: a command that fails writes no state but LASTERR, and answers its code with RDATA = 0. -/
def Obligations.FailedCommandChangesOnlyLastErr : Prop :=
  ∀ (cmd arg : Word) (s t : State) (r : Response),
    transact cmd arg s = .next t → t.outstanding = some r → r.code ≠ 0x00 → t = failed r.code s

/-- R106: a failing command overwrites LASTERR with its code; a successful one leaves it, but for CLRERR, which sets it
to 0x00; hardware reset sets it to 0x00; STATUS[15:8] reads it. -/
def Obligations.LastErrFollowsFailures : Prop :=
  (∀ (cmd arg : Word) (s t : State) (r : Response),
      transact cmd arg s = .next t → t.outstanding = some r →
      (r.code ≠ 0x00 → t.lastErr = r.code)
      ∧ (r.code = 0x00 → decode cmd arg = .instr .clrerr → t.lastErr = 0x00)
      ∧ (r.code = 0x00 → decode cmd arg ≠ .instr .clrerr → t.lastErr = s.lastErr))
    ∧ (∀ s : State, (hardwareReset s).lastErr = 0x00)
    ∧ ∀ s : State, ∃ v, exec (.rd 0x20) s = .next (answered s v) ∧ v.extractLsb' 8 8 = s.lastErr

/-- R109: with no engine WRITE, SUM and RESET fail with NOT_CONFIGURED and change nothing else, the other five commands
never give that code, and only an INIT that succeeds ends that condition, which holds after hardware reset. -/
def Obligations.StreamCommandsNeedEngine : Prop :=
  State.reset.configured = false
    ∧ ∀ s : State, s.configured = false →
      (∀ (n : Byte) (arg : Word), n.toNat ≤ 4 → exec (.write n arg) s = .next (failed 0x04 s))
      ∧ exec .sum s = .next (failed 0x04 s) ∧ exec .reset s = .next (failed 0x04 s)
      ∧ (∀ (sel : Byte) (arg : Word), ∀ i ∈ [Instr.nop, .cfgWr sel arg, .rd sel, .init, .clrerr],
          ∃ t r, exec i s = .next t ∧ t.outstanding = some r ∧ r.code ≠ 0x04)
      ∧ ∀ (i : Instr) (t : State), exec i s = .next t → t.configured = true → i = .init ∧ t.outstanding = some ⟨0x00, 0⟩

/-- CONFIGURED is never cleared except by hardware reset (R21); edge by edge, in the model's edge list (log entry 1). -/
def Obligations.ConfiguredStaysSet : Prop :=
  ∀ (s t : State) (e : ClockEdge) (rest : List ClockEdge),
    s.edges = e :: rest → e.rstN = true → s.configured = true → step s = .next t → t.configured = true

/-- R71: the engine configuration changes only at an INIT that succeeds; CFG_WR changes only staging registers; RESET
(and WRITE and SUM) take nothing from the staging registers. -/
def Obligations.EngineImmutableBetweenInits : Prop :=
  (∀ (i : Instr) (s t : State), exec i s = .next t → (i ≠ .init ∨ t.outstanding ≠ some ⟨0x00, 0⟩) →
      t.dlen = s.dlen ∧ t.klen = s.klen ∧ t.keyl = s.keyl ∧ t.lastNode = s.lastNode ∧ t.p = s.p)
    ∧ (∀ (sel : Byte) (arg : Word) (s t : State), exec (.cfgWr sel arg) s = .next t → t.outstanding = some ⟨0x00, 0⟩ →
        t = { s with cfg := t.cfg, cfg4 := t.cfg4, key := t.key, salt := t.salt, pers := t.pers,
                     outstanding := some ⟨0x00, 0⟩ })
    ∧ ∀ (s : State) (c : Vector Word 4) (c4 : BitVec 2) (k : Vector Byte 32) (sa pe : Vector Byte 8) (n : Byte)
        (arg : Word), ∀ i ∈ [Instr.reset, .write n arg, .sum],
        ∃ t, exec i s = .next t
          ∧ exec i { s with cfg := c, cfg4 := c4, key := k, salt := sa, pers := pe }
              = .next { t with cfg := c, cfg4 := c4, key := k, salt := sa, pers := pe }

/-- DVALID exactly (R28): a successful SUM sets it, a successful INIT, RESET or WRITE of at least one byte clears it,
every other command and every failing one leaves it. -/
def Obligations.DvalidRule : Prop :=
  ∀ (i : Instr) (s : State),
    ∃ t r, exec i s = .next t ∧ t.outstanding = some r
      ∧ t.dvalid =
          if r.code ≠ 0x00 then s.dvalid
          else match i with
            | .sum => true
            | .init => false
            | .reset => false
            | .write n _ => if n = 0 then s.dvalid else false
            | .nop => s.dvalid
            | .cfgWr _ _ => s.dvalid
            | .rd _ => s.dvalid
            | .clrerr => s.dvalid

/-- The "written by" column of R13: each element changes only in the commands listed there, DVALID in SUM, INIT, RESET
and WRITE, LASTERR in a failing command and CLRERR. The last clause is about the model's own fields (log entries 1 and
4). -/
def Obligations.OnlyListedCommandsWrite : Prop :=
  ∀ (i : Instr) (s t : State), exec i s = .next t →
    ((∀ sel arg, i ≠ .cfgWr sel arg) →
      t.cfg = s.cfg ∧ t.cfg4 = s.cfg4 ∧ t.key = s.key ∧ t.salt = s.salt ∧ t.pers = s.pers)
    ∧ (i ≠ .init → t.configured = s.configured ∧ t.dlen = s.dlen ∧ t.klen = s.klen ∧ t.keyl = s.keyl
        ∧ t.lastNode = s.lastNode ∧ t.p = s.p)
    ∧ (i ≠ .init → i ≠ .reset → (∀ n arg, i ≠ .write n arg) →
        t.h = s.h ∧ t.t = s.t ∧ t.buf = s.buf ∧ t.bufLen = s.bufLen)
    ∧ (i ≠ .sum → t.digest = s.digest)
    ∧ (i ≠ .sum → i ≠ .init → i ≠ .reset → (∀ n arg, i ≠ .write n arg) → t.dvalid = s.dvalid)
    ∧ (∀ r, t.outstanding = some r → r.code = 0x00 → i ≠ .clrerr → t.lastErr = s.lastErr)
    ∧ t.edges = s.edges ∧ t.delivered = s.delivered

/-! The assembler's pseudo-instructions (30_encoding.md R60). -/

/-- WRITEB feeds exactly its bytes: it leaves the state that one WRITE per byte leaves, but for the last response. -/
def Obligations.WritebFeedsItsBytes : Prop :=
  ∀ (s : State) (l : List Byte), s.configured = true →
    ∃ t u, execAll (writeb l) s = .next t ∧ execAll (l.map fun b => .write 1 (b.setWidth 32)) s = .next u
      ∧ { t with outstanding := none } = { u with outstanding := none }

/-- SETKEY, SETSALT and SETPERS stage exactly their bytes, zero-padded, and RDDIGEST reads the digest back: the digest
is LEBYTES of its eight RDATA words. -/
def Obligations.PseudoInstructionsStageAndRead : Prop :=
  ∀ s : State,
    (∀ key : Vector Byte 32, execAll (setKey key) s = .next (answered { s with key := key } 0))
    ∧ (∀ l : List Byte, l.length ≤ 8 → execAll (setSalt l) s = .next (answered { s with salt := padTo 8 l } 0))
    ∧ (∀ l : List Byte, l.length ≤ 8 → execAll (setPers l) s = .next (answered { s with pers := padTo 8 l } 0))
    ∧ ∃ w : Vector Word 8, leBytes w = s.digest
        ∧ rdDigest.map (fun i => exec i s) = w.toList.map (fun v => .next (answered s v))
end

