-- ==== Sys2Proof/Laws/Bytes.lean ====
section
/-! SUPPORT. The byte and word conversions: what each conversion's bytes are, and that they undo each other
(00_scope.md R10). -/

namespace Sys2Proof.Machine

theorem byteAt_of_lt {n : Nat} (b : Vector Byte n) {i : Nat} (h : i < n) : byteAt b i = b[i] := by
  simp [byteAt, h]

@[simp] theorem getElem_keepFirst {n : Nat} (len : Nat) (b : Vector Byte n) (i : Nat) (h : i < n) :
    (keepFirst len b)[i] = if i < len then b[i] else 0 := by
  simp [keepFirst]

@[simp] theorem getElem_padTo (n : Nat) (l : List Byte) (i : Nat) (h : i < n) :
    (padTo n l)[i] = l[i]?.getD 0 := by
  simp [padTo]

@[simp] theorem getElem_setLe32 {n : Nat} (b : Vector Byte n) (j : Nat) (w : Word) (i : Nat) (h : i < n) :
    (setLe32 b j w)[i] = if i / 4 = j then wordByte w (i % 4) else b[i] := by
  simp [setLe32]

@[simp] theorem getElem_leBytes (w : Vector Word 8) (i : Nat) (h : i < 32) :
    (leBytes w)[i] = wordByte (w[i / 4]'(by omega)) (i % 4) := by
  simp [leBytes]

theorem getLsbD_wordByte (w : Word) (k i : Nat) (hi : i < 8) : (wordByte w k).getLsbD i = w.getLsbD (8 * k + i) := by
  simp [wordByte, hi]

theorem getLsbD_wordOfBytes (b0 b1 b2 b3 : Byte) (i : Nat) :
    (wordOfBytes b0 b1 b2 b3).getLsbD i =
      if i < 8 then b0.getLsbD i
      else if i < 16 then b1.getLsbD (i - 8)
      else if i < 24 then b2.getLsbD (i - 16) else b3.getLsbD (i - 24) := by
  simp only [wordOfBytes, BitVec.getLsbD_append]
  split
  · rfl
  · split
    · rw [if_pos (by omega)]
    · split
      · rw [if_neg (by omega), if_pos (by omega)]; congr 1
      · rw [if_neg (by omega), if_neg (by omega)]; congr 1

/-- The bytes of a word built from four bytes are those bytes, lowest first. -/
theorem wordByte_wordOfBytes (b0 b1 b2 b3 : Byte) :
    wordByte (wordOfBytes b0 b1 b2 b3) 0 = b0 ∧ wordByte (wordOfBytes b0 b1 b2 b3) 1 = b1
      ∧ wordByte (wordOfBytes b0 b1 b2 b3) 2 = b2 ∧ wordByte (wordOfBytes b0 b1 b2 b3) 3 = b3 := by
  refine ⟨?_, ?_, ?_, ?_⟩ <;>
  · apply BitVec.eq_of_getLsbD_eq
    intro i hi
    rw [getLsbD_wordByte _ _ _ hi, getLsbD_wordOfBytes]
    repeat' split
    all_goals first | omega | (congr 1; omega)

/-- A word is the word of its own bytes. -/
theorem wordOfBytes_wordByte (w : Word) :
    wordOfBytes (wordByte w 0) (wordByte w 1) (wordByte w 2) (wordByte w 3) = w := by
  apply BitVec.eq_of_getLsbD_eq
  intro i hi
  rw [getLsbD_wordOfBytes]
  repeat' split
  all_goals
    rw [getLsbD_wordByte _ _ _ (by omega)]
    congr 1
    omega

/-- Reading the word just written to a byte array gives it back. -/
theorem le32_setLe32 {n : Nat} (b : Vector Byte n) (i : Nat) (w : Word) (h : 4 * i + 3 < n) :
    le32 (setLe32 b i w) i = w := by
  have e : ∀ k, k < 4 → byteAt (setLe32 b i w) (4 * i + k) = wordByte w k := by
    intro k hk
    rw [byteAt_of_lt _ (by omega), getElem_setLe32, if_pos (by omega)]
    congr 1
    omega
  have e0 := e 0 (by omega)
  rw [Nat.add_zero] at e0
  rw [le32, e0, e 1 (by omega), e 2 (by omega), e 3 (by omega), wordOfBytes_wordByte]

/-- Writing one word of a byte array leaves its other words. -/
theorem le32_setLe32_other {n : Nat} (b : Vector Byte n) (i j : Nat) (w : Word) (hij : i ≠ j) :
    le32 (setLe32 b i w) j = le32 b j := by
  have e : ∀ k, k < 4 → byteAt (setLe32 b i w) (4 * j + k) = byteAt b (4 * j + k) := by
    intro k hk
    by_cases h : 4 * j + k < n
    · rw [byteAt_of_lt _ h, byteAt_of_lt _ h, getElem_setLe32, if_neg (by omega)]
    · simp [byteAt, h]
  have e0 := e 0 (by omega)
  rw [Nat.add_zero] at e0
  rw [le32, e0, e 1 (by omega), e 2 (by omega), e 3 (by omega), ← le32]

/-- Byte k of the little-endian word i is byte 4i+k of the array. -/
theorem wordByte_le32 {n : Nat} (b : Vector Byte n) (i k : Nat) (hk : k < 4) :
    wordByte (le32 b i) k = byteAt b (4 * i + k) := by
  obtain ⟨h0, h1, h2, h3⟩ := wordByte_wordOfBytes (byteAt b (4 * i)) (byteAt b (4 * i + 1)) (byteAt b (4 * i + 2))
    (byteAt b (4 * i + 3))
  have : k = 0 ∨ k = 1 ∨ k = 2 ∨ k = 3 := by omega
  rcases this with rfl | rfl | rfl | rfl
  · exact h0
  · exact h1
  · exact h2
  · exact h3

end Sys2Proof.Machine
end

