-- ==== Sys2Proof/Laws/Compression.lean ====
section
/-! SUPPORT. G at each of the eight places of a round (41_compression.md R79), on a working vector written out in its
sixteen words: which words change, and to what. -/

namespace Sys2Proof.Machine

/-- A working vector is its sixteen words. -/
theorem workVec_eq (v : WorkVec) :
    v = #v[v[0], v[1], v[2], v[3], v[4], v[5], v[6], v[7], v[8], v[9], v[10], v[11], v[12], v[13], v[14], v[15]] := by
  obtain ⟨⟨words⟩, hl⟩ := v
  match words, hl with
  | [_, _, _, _, _, _, _, _, _, _, _, _, _, _, _, _], _ => rfl

variable (v0 v1 v2 v3 v4 v5 v6 v7 v8 v9 v10 v11 v12 v13 v14 v15 x y : Word)

theorem mixAt_column0 :
    mixAt #v[v0, v1, v2, v3, v4, v5, v6, v7, v8, v9, v10, v11, v12, v13, v14, v15] 0 4 8 12 x y =
      let q := mixG ⟨v0, v4, v8, v12⟩ x y
      #v[q.a, v1, v2, v3, q.b, v5, v6, v7, q.c, v9, v10, v11, q.d, v13, v14, v15] := by
  unfold mixAt; generalize mixG = G; rfl

theorem mixAt_column1 :
    mixAt #v[v0, v1, v2, v3, v4, v5, v6, v7, v8, v9, v10, v11, v12, v13, v14, v15] 1 5 9 13 x y =
      let q := mixG ⟨v1, v5, v9, v13⟩ x y
      #v[v0, q.a, v2, v3, v4, q.b, v6, v7, v8, q.c, v10, v11, v12, q.d, v14, v15] := by
  unfold mixAt; generalize mixG = G; rfl

theorem mixAt_column2 :
    mixAt #v[v0, v1, v2, v3, v4, v5, v6, v7, v8, v9, v10, v11, v12, v13, v14, v15] 2 6 10 14 x y =
      let q := mixG ⟨v2, v6, v10, v14⟩ x y
      #v[v0, v1, q.a, v3, v4, v5, q.b, v7, v8, v9, q.c, v11, v12, v13, q.d, v15] := by
  unfold mixAt; generalize mixG = G; rfl

theorem mixAt_column3 :
    mixAt #v[v0, v1, v2, v3, v4, v5, v6, v7, v8, v9, v10, v11, v12, v13, v14, v15] 3 7 11 15 x y =
      let q := mixG ⟨v3, v7, v11, v15⟩ x y
      #v[v0, v1, v2, q.a, v4, v5, v6, q.b, v8, v9, v10, q.c, v12, v13, v14, q.d] := by
  unfold mixAt; generalize mixG = G; rfl

theorem mixAt_diagonal0 :
    mixAt #v[v0, v1, v2, v3, v4, v5, v6, v7, v8, v9, v10, v11, v12, v13, v14, v15] 0 5 10 15 x y =
      let q := mixG ⟨v0, v5, v10, v15⟩ x y
      #v[q.a, v1, v2, v3, v4, q.b, v6, v7, v8, v9, q.c, v11, v12, v13, v14, q.d] := by
  unfold mixAt; generalize mixG = G; rfl

theorem mixAt_diagonal1 :
    mixAt #v[v0, v1, v2, v3, v4, v5, v6, v7, v8, v9, v10, v11, v12, v13, v14, v15] 1 6 11 12 x y =
      let q := mixG ⟨v1, v6, v11, v12⟩ x y
      #v[v0, q.a, v2, v3, v4, v5, q.b, v7, v8, v9, v10, q.c, q.d, v13, v14, v15] := by
  unfold mixAt; generalize mixG = G; rfl

theorem mixAt_diagonal2 :
    mixAt #v[v0, v1, v2, v3, v4, v5, v6, v7, v8, v9, v10, v11, v12, v13, v14, v15] 2 7 8 13 x y =
      let q := mixG ⟨v2, v7, v8, v13⟩ x y
      #v[v0, v1, q.a, v3, v4, v5, v6, q.b, q.c, v9, v10, v11, v12, q.d, v14, v15] := by
  unfold mixAt; generalize mixG = G; rfl

theorem mixAt_diagonal3 :
    mixAt #v[v0, v1, v2, v3, v4, v5, v6, v7, v8, v9, v10, v11, v12, v13, v14, v15] 3 4 9 14 x y =
      let q := mixG ⟨v3, v4, v9, v14⟩ x y
      #v[v0, v1, v2, q.a, q.b, v5, v6, v7, v8, q.c, v10, v11, v12, v13, q.d, v15] := by
  unfold mixAt; generalize mixG = G; rfl

end Sys2Proof.Machine
end

