-- ==== Sys2Proof/Laws/Decode.lean ====
section
/-! SUPPORT. The fields of a command word as numbers, and the fields of the word a command encodes to. -/

namespace Sys2Proof

@[simp] theorem toNat_cmdOpc (cmd : Word) : (cmdOpc cmd).toNat = cmd.toNat % 2 ^ 8 := by
  simp [cmdOpc, BitVec.extractLsb'_toNat]

@[simp] theorem toNat_cmdSel (cmd : Word) : (cmdSel cmd).toNat = cmd.toNat / 2 ^ 8 % 2 ^ 8 := by
  simp [cmdSel, BitVec.extractLsb'_toNat, Nat.shiftRight_eq_div_pow]

@[simp] theorem toNat_cmdRsvd (cmd : Word) : (cmdRsvd cmd).toNat = cmd.toNat / 2 ^ 16 := by
  have := cmd.isLt
  simp only [cmdRsvd, BitVec.extractLsb'_toNat, Nat.shiftRight_eq_div_pow]
  omega

theorem cmdRsvd_eq_zero_iff (cmd : Word) : cmdRsvd cmd = 0 ↔ cmd.toNat / 2 ^ 16 = 0 := by
  rw [← toNat_cmdRsvd, ← BitVec.toNat_inj]; rfl

/-- The fields of a word put together from an opcode and a selector. -/
theorem fields_of_parts (opc sel : Byte) :
    cmdOpc (sel.setWidth 32 <<< 8 ||| opc.setWidth 32) = opc ∧ cmdSel (sel.setWidth 32 <<< 8 ||| opc.setWidth 32) = sel
      ∧ cmdRsvd (sel.setWidth 32 <<< 8 ||| opc.setWidth 32) = 0 := by
  refine ⟨?_, ?_, ?_⟩ <;> apply BitVec.eq_of_getLsbD_eq <;> intro i hi <;>
    simp only [cmdOpc, cmdSel, cmdRsvd, BitVec.getLsbD_extractLsb', BitVec.getLsbD_or, BitVec.getLsbD_shiftLeft,
      BitVec.getLsbD_setWidth]
  · simp [hi, show i < 32 by omega]
  · simp [hi, show 8 + i < 32 by omega, show i < 32 by omega]
  · simp [BitVec.getLsbD_of_ge sel (16 + i - 8) (by omega), BitVec.getLsbD_of_ge opc (16 + i) (by omega)]

@[simp] theorem cmdOpc_cmdWord (i : Instr) : cmdOpc i.cmdWord = i.opc := (fields_of_parts i.opc i.selField).1

@[simp] theorem cmdSel_cmdWord (i : Instr) : cmdSel i.cmdWord = i.selField := (fields_of_parts i.opc i.selField).2.1

@[simp] theorem cmdRsvd_cmdWord (i : Instr) : cmdRsvd i.cmdWord = 0 := (fields_of_parts i.opc i.selField).2.2

end Sys2Proof
end

