-- ==== Sys2Proof/Laws/Operands.lean ====
section
/-! SUPPORT. The selector map (10_state.md R35): selectors and registers name each other, the mapped selectors are the
readable set, the staging registers the writable one; and the bytes a WRITE takes. -/

namespace Sys2Proof.Machine

/-- Every register is at its selector. -/
@[simp] theorem regOfSel_selOfReg (r : Reg) : regOfSel (selOfReg r) = some r := by
  cases r with
  | cfg i => revert i; decide
  | cfg4 => decide
  | key i => revert i; decide
  | salt i => revert i; decide
  | pers i => revert i; decide
  | status => decide
  | engcfg => decide
  | info => decide
  | p i => revert i; decide
  | h i => revert i; decide
  | t i => revert i; decide
  | buf i => revert i; decide
  | digest i => revert i; decide

/-- The mapped selectors are exactly the readable set. -/
theorem regOfSel_isSome (sel : Byte) : (regOfSel sel).isSome = selReadable sel := by
  revert sel; decide +kernel

/-- A register at a selector has that selector. -/
theorem selOfReg_of_regOfSel {sel : Byte} {r : Reg} (h : regOfSel sel = some r) : selOfReg r = sel := by
  have : ∀ x : Byte, ∀ q, regOfSel x = some q → selOfReg q = x := by
    intro x
    have e : (regOfSel x).all (fun q => selOfReg q == x) = true := by revert x; decide +kernel
    intro q hq
    simpa [hq] using e
  exact this sel r h

/-- The staging registers, those a CFG_WR may write. -/
def isStaging : Reg → Bool
  | .cfg _ | .cfg4 | .key _ | .salt _ | .pers _ => true
  | .status | .engcfg | .info | .p _ | .h _ | .t _ | .buf _ | .digest _ => false

/-- CFG_WR is accepted exactly by the staging registers. -/
theorem writeReg_isSome (s : State) (v : Word) (r : Reg) : (writeReg s v r).isSome = isStaging r := by
  cases r <;> rfl

/-- The selectors of the staging registers are exactly the writable set. -/
theorem selWritable_eq (sel : Byte) : selWritable sel = (regOfSel sel).any isStaging := by
  revert sel; decide +kernel

/-- Writing a staging register leaves everything but the staging registers. -/
theorem writeReg_frame {s t : State} {v : Word} {r : Reg} (h : writeReg s v r = some t) :
    t = { s with cfg := t.cfg, cfg4 := t.cfg4, key := t.key, salt := t.salt, pers := t.pers } := by
  cases r <;> simp [writeReg] at h <;> subst h <;> rfl

@[simp] theorem length_writeBytes (n : Nat) (arg : Word) : (writeBytes n arg).length = n := by
  simp [writeBytes]

@[simp] theorem getElem_writeBytes (n : Nat) (arg : Word) (k : Nat) (h : k < (writeBytes n arg).length) :
    (writeBytes n arg)[k] = wordByte arg k := by
  simp [writeBytes]

end Sys2Proof.Machine
end

