-- ==== Sys2Proof/Laws/State.lean ====
section
/-! SUPPORT. One lemma per field per shared update of the state, so that no proof unfolds a record update. -/

namespace Sys2Proof.Machine

@[simp] theorem withResponse_cfg (rc : RC) (data : Word) (s : State) : (withResponse rc data s).cfg = s.cfg := rfl
@[simp] theorem withResponse_cfg4 (rc : RC) (data : Word) (s : State) : (withResponse rc data s).cfg4 = s.cfg4 := rfl
@[simp] theorem withResponse_key (rc : RC) (data : Word) (s : State) : (withResponse rc data s).key = s.key := rfl
@[simp] theorem withResponse_salt (rc : RC) (data : Word) (s : State) : (withResponse rc data s).salt = s.salt := rfl
@[simp] theorem withResponse_pers (rc : RC) (data : Word) (s : State) : (withResponse rc data s).pers = s.pers := rfl
@[simp] theorem withResponse_configured (rc : RC) (data : Word) (s : State) : (withResponse rc data s).configured = s.configured := rfl
@[simp] theorem withResponse_dlen (rc : RC) (data : Word) (s : State) : (withResponse rc data s).dlen = s.dlen := rfl
@[simp] theorem withResponse_klen (rc : RC) (data : Word) (s : State) : (withResponse rc data s).klen = s.klen := rfl
@[simp] theorem withResponse_keyl (rc : RC) (data : Word) (s : State) : (withResponse rc data s).keyl = s.keyl := rfl
@[simp] theorem withResponse_lastNode (rc : RC) (data : Word) (s : State) : (withResponse rc data s).lastNode = s.lastNode := rfl
@[simp] theorem withResponse_p (rc : RC) (data : Word) (s : State) : (withResponse rc data s).p = s.p := rfl
@[simp] theorem withResponse_h (rc : RC) (data : Word) (s : State) : (withResponse rc data s).h = s.h := rfl
@[simp] theorem withResponse_t (rc : RC) (data : Word) (s : State) : (withResponse rc data s).t = s.t := rfl
@[simp] theorem withResponse_buf (rc : RC) (data : Word) (s : State) : (withResponse rc data s).buf = s.buf := rfl
@[simp] theorem withResponse_bufLen (rc : RC) (data : Word) (s : State) : (withResponse rc data s).bufLen = s.bufLen := rfl
@[simp] theorem withResponse_digest (rc : RC) (data : Word) (s : State) : (withResponse rc data s).digest = s.digest := rfl
@[simp] theorem withResponse_dvalid (rc : RC) (data : Word) (s : State) : (withResponse rc data s).dvalid = s.dvalid := rfl
@[simp] theorem withResponse_lastErr (rc : RC) (data : Word) (s : State) : (withResponse rc data s).lastErr = s.lastErr := rfl
@[simp] theorem withResponse_outstanding (rc : RC) (data : Word) (s : State) : (withResponse rc data s).outstanding = some ⟨codeOf rc, data⟩ := rfl
@[simp] theorem withResponse_edges (rc : RC) (data : Word) (s : State) : (withResponse rc data s).edges = s.edges := rfl
@[simp] theorem withResponse_delivered (rc : RC) (data : Word) (s : State) : (withResponse rc data s).delivered = s.delivered := rfl

@[simp] theorem failState_cfg (rc : RC) (s : State) : (failState rc s).cfg = s.cfg := rfl
@[simp] theorem failState_cfg4 (rc : RC) (s : State) : (failState rc s).cfg4 = s.cfg4 := rfl
@[simp] theorem failState_key (rc : RC) (s : State) : (failState rc s).key = s.key := rfl
@[simp] theorem failState_salt (rc : RC) (s : State) : (failState rc s).salt = s.salt := rfl
@[simp] theorem failState_pers (rc : RC) (s : State) : (failState rc s).pers = s.pers := rfl
@[simp] theorem failState_configured (rc : RC) (s : State) : (failState rc s).configured = s.configured := rfl
@[simp] theorem failState_dlen (rc : RC) (s : State) : (failState rc s).dlen = s.dlen := rfl
@[simp] theorem failState_klen (rc : RC) (s : State) : (failState rc s).klen = s.klen := rfl
@[simp] theorem failState_keyl (rc : RC) (s : State) : (failState rc s).keyl = s.keyl := rfl
@[simp] theorem failState_lastNode (rc : RC) (s : State) : (failState rc s).lastNode = s.lastNode := rfl
@[simp] theorem failState_p (rc : RC) (s : State) : (failState rc s).p = s.p := rfl
@[simp] theorem failState_h (rc : RC) (s : State) : (failState rc s).h = s.h := rfl
@[simp] theorem failState_t (rc : RC) (s : State) : (failState rc s).t = s.t := rfl
@[simp] theorem failState_buf (rc : RC) (s : State) : (failState rc s).buf = s.buf := rfl
@[simp] theorem failState_bufLen (rc : RC) (s : State) : (failState rc s).bufLen = s.bufLen := rfl
@[simp] theorem failState_digest (rc : RC) (s : State) : (failState rc s).digest = s.digest := rfl
@[simp] theorem failState_dvalid (rc : RC) (s : State) : (failState rc s).dvalid = s.dvalid := rfl
@[simp] theorem failState_lastErr (rc : RC) (s : State) : (failState rc s).lastErr = codeOf rc := rfl
@[simp] theorem failState_outstanding (rc : RC) (s : State) : (failState rc s).outstanding = some ⟨codeOf rc, 0⟩ := rfl
@[simp] theorem failState_edges (rc : RC) (s : State) : (failState rc s).edges = s.edges := rfl
@[simp] theorem failState_delivered (rc : RC) (s : State) : (failState rc s).delivered = s.delivered := rfl

@[simp] theorem flush_cfg (s : State) : (flush s).cfg = s.cfg := rfl
@[simp] theorem flush_cfg4 (s : State) : (flush s).cfg4 = s.cfg4 := rfl
@[simp] theorem flush_key (s : State) : (flush s).key = s.key := rfl
@[simp] theorem flush_salt (s : State) : (flush s).salt = s.salt := rfl
@[simp] theorem flush_pers (s : State) : (flush s).pers = s.pers := rfl
@[simp] theorem flush_configured (s : State) : (flush s).configured = s.configured := rfl
@[simp] theorem flush_dlen (s : State) : (flush s).dlen = s.dlen := rfl
@[simp] theorem flush_klen (s : State) : (flush s).klen = s.klen := rfl
@[simp] theorem flush_keyl (s : State) : (flush s).keyl = s.keyl := rfl
@[simp] theorem flush_lastNode (s : State) : (flush s).lastNode = s.lastNode := rfl
@[simp] theorem flush_p (s : State) : (flush s).p = s.p := rfl
@[simp] theorem flush_h (s : State) : (flush s).h = compressF s.h s.buf (s.t + 64) 0 0 := rfl
@[simp] theorem flush_t (s : State) : (flush s).t = s.t + 64 := rfl
@[simp] theorem flush_buf (s : State) : (flush s).buf = Vector.replicate 64 0 := rfl
@[simp] theorem flush_bufLen (s : State) : (flush s).bufLen = 0 := rfl
@[simp] theorem flush_digest (s : State) : (flush s).digest = s.digest := rfl
@[simp] theorem flush_dvalid (s : State) : (flush s).dvalid = s.dvalid := rfl
@[simp] theorem flush_lastErr (s : State) : (flush s).lastErr = s.lastErr := rfl
@[simp] theorem flush_outstanding (s : State) : (flush s).outstanding = s.outstanding := rfl
@[simp] theorem flush_edges (s : State) : (flush s).edges = s.edges := rfl
@[simp] theorem flush_delivered (s : State) : (flush s).delivered = s.delivered := rfl

@[simp] theorem appendByte_cfg (b : Byte) (s : State) : (appendByte b s).cfg = s.cfg := rfl
@[simp] theorem appendByte_cfg4 (b : Byte) (s : State) : (appendByte b s).cfg4 = s.cfg4 := rfl
@[simp] theorem appendByte_key (b : Byte) (s : State) : (appendByte b s).key = s.key := rfl
@[simp] theorem appendByte_salt (b : Byte) (s : State) : (appendByte b s).salt = s.salt := rfl
@[simp] theorem appendByte_pers (b : Byte) (s : State) : (appendByte b s).pers = s.pers := rfl
@[simp] theorem appendByte_configured (b : Byte) (s : State) : (appendByte b s).configured = s.configured := rfl
@[simp] theorem appendByte_dlen (b : Byte) (s : State) : (appendByte b s).dlen = s.dlen := rfl
@[simp] theorem appendByte_klen (b : Byte) (s : State) : (appendByte b s).klen = s.klen := rfl
@[simp] theorem appendByte_keyl (b : Byte) (s : State) : (appendByte b s).keyl = s.keyl := rfl
@[simp] theorem appendByte_lastNode (b : Byte) (s : State) : (appendByte b s).lastNode = s.lastNode := rfl
@[simp] theorem appendByte_p (b : Byte) (s : State) : (appendByte b s).p = s.p := rfl
@[simp] theorem appendByte_h (b : Byte) (s : State) : (appendByte b s).h = s.h := rfl
@[simp] theorem appendByte_t (b : Byte) (s : State) : (appendByte b s).t = s.t := rfl
@[simp] theorem appendByte_buf (b : Byte) (s : State) : (appendByte b s).buf = s.buf.setIfInBounds s.bufLen.toNat b := rfl
@[simp] theorem appendByte_bufLen (b : Byte) (s : State) : (appendByte b s).bufLen = s.bufLen + 1 := rfl
@[simp] theorem appendByte_digest (b : Byte) (s : State) : (appendByte b s).digest = s.digest := rfl
@[simp] theorem appendByte_dvalid (b : Byte) (s : State) : (appendByte b s).dvalid = s.dvalid := rfl
@[simp] theorem appendByte_lastErr (b : Byte) (s : State) : (appendByte b s).lastErr = s.lastErr := rfl
@[simp] theorem appendByte_outstanding (b : Byte) (s : State) : (appendByte b s).outstanding = s.outstanding := rfl
@[simp] theorem appendByte_edges (b : Byte) (s : State) : (appendByte b s).edges = s.edges := rfl
@[simp] theorem appendByte_delivered (b : Byte) (s : State) : (appendByte b s).delivered = s.delivered := rfl

@[simp] theorem reinit_cfg (s : State) : (reinit s).cfg = s.cfg := rfl
@[simp] theorem reinit_cfg4 (s : State) : (reinit s).cfg4 = s.cfg4 := rfl
@[simp] theorem reinit_key (s : State) : (reinit s).key = s.key := rfl
@[simp] theorem reinit_salt (s : State) : (reinit s).salt = s.salt := rfl
@[simp] theorem reinit_pers (s : State) : (reinit s).pers = s.pers := rfl
@[simp] theorem reinit_configured (s : State) : (reinit s).configured = s.configured := rfl
@[simp] theorem reinit_dlen (s : State) : (reinit s).dlen = s.dlen := rfl
@[simp] theorem reinit_klen (s : State) : (reinit s).klen = s.klen := rfl
@[simp] theorem reinit_keyl (s : State) : (reinit s).keyl = s.keyl := rfl
@[simp] theorem reinit_lastNode (s : State) : (reinit s).lastNode = s.lastNode := rfl
@[simp] theorem reinit_p (s : State) : (reinit s).p = s.p := rfl
@[simp] theorem reinit_h (s : State) : (reinit s).h = Vector.ofFn fun i => IV[i] ^^^ s.p[i] := rfl
@[simp] theorem reinit_t (s : State) : (reinit s).t = 0 := rfl
@[simp] theorem reinit_buf (s : State) : (reinit s).buf = if s.klen = 0 then Vector.replicate 64 0 else keyBlock s := rfl
@[simp] theorem reinit_bufLen (s : State) : (reinit s).bufLen = if s.klen = 0 then 0 else 64 := rfl
@[simp] theorem reinit_digest (s : State) : (reinit s).digest = s.digest := rfl
@[simp] theorem reinit_dvalid (s : State) : (reinit s).dvalid = false := rfl
@[simp] theorem reinit_lastErr (s : State) : (reinit s).lastErr = s.lastErr := rfl
@[simp] theorem reinit_outstanding (s : State) : (reinit s).outstanding = s.outstanding := rfl
@[simp] theorem reinit_edges (s : State) : (reinit s).edges = s.edges := rfl
@[simp] theorem reinit_delivered (s : State) : (reinit s).delivered = s.delivered := rfl

@[simp] theorem latchEngine_cfg (s : State) : (latchEngine s).cfg = s.cfg := rfl
@[simp] theorem latchEngine_cfg4 (s : State) : (latchEngine s).cfg4 = s.cfg4 := rfl
@[simp] theorem latchEngine_key (s : State) : (latchEngine s).key = s.key := rfl
@[simp] theorem latchEngine_salt (s : State) : (latchEngine s).salt = s.salt := rfl
@[simp] theorem latchEngine_pers (s : State) : (latchEngine s).pers = s.pers := rfl
@[simp] theorem latchEngine_configured (s : State) : (latchEngine s).configured = true := rfl
@[simp] theorem latchEngine_dlen (s : State) : (latchEngine s).dlen = (deriveFields s).dlen.setWidth 6 := rfl
@[simp] theorem latchEngine_klen (s : State) : (latchEngine s).klen = (deriveFields s).klen.setWidth 6 := rfl
@[simp] theorem latchEngine_keyl (s : State) : (latchEngine s).keyl = keepFirst (deriveFields s).klen.toNat s.key := rfl
@[simp] theorem latchEngine_lastNode (s : State) : (latchEngine s).lastNode = (deriveFields s).lastNode := rfl
@[simp] theorem latchEngine_p (s : State) : (latchEngine s).p = Vector.ofFn fun i => le32 (stagedBlock s) i.val := rfl
@[simp] theorem latchEngine_h (s : State) : (latchEngine s).h = s.h := rfl
@[simp] theorem latchEngine_t (s : State) : (latchEngine s).t = s.t := rfl
@[simp] theorem latchEngine_buf (s : State) : (latchEngine s).buf = s.buf := rfl
@[simp] theorem latchEngine_bufLen (s : State) : (latchEngine s).bufLen = s.bufLen := rfl
@[simp] theorem latchEngine_digest (s : State) : (latchEngine s).digest = s.digest := rfl
@[simp] theorem latchEngine_dvalid (s : State) : (latchEngine s).dvalid = s.dvalid := rfl
@[simp] theorem latchEngine_lastErr (s : State) : (latchEngine s).lastErr = s.lastErr := rfl
@[simp] theorem latchEngine_outstanding (s : State) : (latchEngine s).outstanding = s.outstanding := rfl
@[simp] theorem latchEngine_edges (s : State) : (latchEngine s).edges = s.edges := rfl
@[simp] theorem latchEngine_delivered (s : State) : (latchEngine s).delivered = s.delivered := rfl

@[simp] theorem deliver_cfg (s : State) : (deliver s).cfg = s.cfg := by unfold deliver; split <;> rfl
@[simp] theorem deliver_cfg4 (s : State) : (deliver s).cfg4 = s.cfg4 := by unfold deliver; split <;> rfl
@[simp] theorem deliver_key (s : State) : (deliver s).key = s.key := by unfold deliver; split <;> rfl
@[simp] theorem deliver_salt (s : State) : (deliver s).salt = s.salt := by unfold deliver; split <;> rfl
@[simp] theorem deliver_pers (s : State) : (deliver s).pers = s.pers := by unfold deliver; split <;> rfl
@[simp] theorem deliver_configured (s : State) : (deliver s).configured = s.configured := by unfold deliver; split <;> rfl
@[simp] theorem deliver_dlen (s : State) : (deliver s).dlen = s.dlen := by unfold deliver; split <;> rfl
@[simp] theorem deliver_klen (s : State) : (deliver s).klen = s.klen := by unfold deliver; split <;> rfl
@[simp] theorem deliver_keyl (s : State) : (deliver s).keyl = s.keyl := by unfold deliver; split <;> rfl
@[simp] theorem deliver_lastNode (s : State) : (deliver s).lastNode = s.lastNode := by unfold deliver; split <;> rfl
@[simp] theorem deliver_p (s : State) : (deliver s).p = s.p := by unfold deliver; split <;> rfl
@[simp] theorem deliver_h (s : State) : (deliver s).h = s.h := by unfold deliver; split <;> rfl
@[simp] theorem deliver_t (s : State) : (deliver s).t = s.t := by unfold deliver; split <;> rfl
@[simp] theorem deliver_buf (s : State) : (deliver s).buf = s.buf := by unfold deliver; split <;> rfl
@[simp] theorem deliver_bufLen (s : State) : (deliver s).bufLen = s.bufLen := by unfold deliver; split <;> rfl
@[simp] theorem deliver_digest (s : State) : (deliver s).digest = s.digest := by unfold deliver; split <;> rfl
@[simp] theorem deliver_dvalid (s : State) : (deliver s).dvalid = s.dvalid := by unfold deliver; split <;> rfl
@[simp] theorem deliver_lastErr (s : State) : (deliver s).lastErr = s.lastErr := by unfold deliver; split <;> rfl
@[simp] theorem deliver_edges (s : State) : (deliver s).edges = s.edges := by unfold deliver; split <;> rfl
@[simp] theorem deliver_outstanding (s : State) : (deliver s).outstanding = none := by
  unfold deliver; split <;> simp_all
@[simp] theorem deliver_delivered (s : State) : (deliver s).delivered = s.delivered ++ s.outstanding.toList := by
  unfold deliver; split <;> simp_all

@[simp] theorem hardwareReset_cfg (s : State) : (hardwareReset s).cfg = State.reset.cfg := rfl
@[simp] theorem hardwareReset_cfg4 (s : State) : (hardwareReset s).cfg4 = State.reset.cfg4 := rfl
@[simp] theorem hardwareReset_key (s : State) : (hardwareReset s).key = State.reset.key := rfl
@[simp] theorem hardwareReset_salt (s : State) : (hardwareReset s).salt = State.reset.salt := rfl
@[simp] theorem hardwareReset_pers (s : State) : (hardwareReset s).pers = State.reset.pers := rfl
@[simp] theorem hardwareReset_configured (s : State) : (hardwareReset s).configured = State.reset.configured := rfl
@[simp] theorem hardwareReset_dlen (s : State) : (hardwareReset s).dlen = State.reset.dlen := rfl
@[simp] theorem hardwareReset_klen (s : State) : (hardwareReset s).klen = State.reset.klen := rfl
@[simp] theorem hardwareReset_keyl (s : State) : (hardwareReset s).keyl = State.reset.keyl := rfl
@[simp] theorem hardwareReset_lastNode (s : State) : (hardwareReset s).lastNode = State.reset.lastNode := rfl
@[simp] theorem hardwareReset_p (s : State) : (hardwareReset s).p = State.reset.p := rfl
@[simp] theorem hardwareReset_h (s : State) : (hardwareReset s).h = State.reset.h := rfl
@[simp] theorem hardwareReset_t (s : State) : (hardwareReset s).t = State.reset.t := rfl
@[simp] theorem hardwareReset_buf (s : State) : (hardwareReset s).buf = State.reset.buf := rfl
@[simp] theorem hardwareReset_bufLen (s : State) : (hardwareReset s).bufLen = State.reset.bufLen := rfl
@[simp] theorem hardwareReset_digest (s : State) : (hardwareReset s).digest = State.reset.digest := rfl
@[simp] theorem hardwareReset_dvalid (s : State) : (hardwareReset s).dvalid = State.reset.dvalid := rfl
@[simp] theorem hardwareReset_lastErr (s : State) : (hardwareReset s).lastErr = State.reset.lastErr := rfl
@[simp] theorem hardwareReset_outstanding (s : State) : (hardwareReset s).outstanding = State.reset.outstanding := rfl
@[simp] theorem hardwareReset_edges (s : State) : (hardwareReset s).edges = s.edges := rfl
@[simp] theorem hardwareReset_delivered (s : State) : (hardwareReset s).delivered = s.delivered := rfl

end Sys2Proof.Machine
end

