-- ==== Sys2Proof/Laws/ParameterBlock.lean ====
section
/-! SUPPORT. The configuration checks of INIT (40_parameter_block.md R63): which error is reported, and what a legal
configuration satisfies. -/

namespace Sys2Proof.Machine

/-- A configuration passes exactly when the five conditions hold. -/
theorem validate_eq_none_iff (s : State) :
    validate s = none ↔
      (cfgSize s).toNat ≤ 32 ∧ (cfgKeyLen s).toNat ≤ 32 ∧ (cfgSaltLen s).toNat ≤ 8 ∧ (cfgPersLen s).toNat ≤ 8
        ∧ (treeEn s = true → (cfgInnerSize s).toNat ≤ 32) := by
  unfold validate
  constructor
  · intro h
    repeat' split at h
    all_goals first | contradiction | skip
    rename_i h1 h2 h3 h4 h5
    exact ⟨Nat.le_of_not_lt h1, Nat.le_of_not_lt h2, Nat.le_of_not_lt h3, Nat.le_of_not_lt h4, fun ht => Nat.le_of_not_lt fun hi => h5 ⟨ht, hi⟩⟩
  · rintro ⟨h1, h2, h3, h4, h5⟩
    rw [if_neg (Nat.not_lt.mpr h1), if_neg (Nat.not_lt.mpr h2), if_neg (Nat.not_lt.mpr h3), if_neg (Nat.not_lt.mpr h4),
      if_neg]
    exact fun ⟨ht, hi⟩ => Nat.not_lt.mpr (h5 ht) hi

/-- The error INIT reports is one of the five configuration codes (60_exceptions.md R107). -/
theorem validate_code {s : State} {rc : RC} (h : validate s = some rc) :
    rc = .cfgSize ∨ rc = .cfgKeyLen ∨ rc = .cfgSaltLen ∨ rc = .cfgPersLen ∨ rc = .cfgInnerSize := by
  unfold validate at h
  repeat' split at h
  all_goals simp_all

/-- For a legal SIZE the digest length is 1..32 (R64). -/
theorem digestLength_range {size : Byte} (h : size.toNat ≤ 32) :
    1 ≤ (digestLength size).toNat ∧ (digestLength size).toNat ≤ 32 := by
  revert size; decide +kernel

end Sys2Proof.Machine
end

