-- ==== Sys2Proof/Laws/PerInstr.lean ====
section
/-! SUPPORT. Facts about every command as syntax, one lemma per constructor. -/

namespace Sys2Proof.Laws

namespace EncodeMatchesRow

/-- The encoded word selects the command's own row of the opcode map (30_encoding.md R54). -/
def Statement (i : Instr) : Prop := rowSelected (encode i).1 i.row = true

theorem nop : Statement .nop := rfl
theorem cfgWr (sel : Byte) (arg : Word) : Statement (.cfgWr sel arg) := by
  show rowSelected (Instr.cfgWr sel 0).cmdWord (Instr.cfgWr sel 0).row = true
  revert sel; decide +kernel
theorem rd (sel : Byte) : Statement (.rd sel) := by
  show rowSelected (Instr.rd sel).cmdWord (Instr.rd sel).row = true
  revert sel; decide +kernel
theorem init : Statement .init := rfl
theorem reset : Statement .reset := rfl
theorem write (n : Byte) (arg : Word) : Statement (.write n arg) := by
  show rowSelected (Instr.write n 0).cmdWord (Instr.write n 0).row = true
  revert n; decide +kernel
theorem sum : Statement .sum := rfl
theorem clrerr : Statement .clrerr := rfl

end EncodeMatchesRow

end Sys2Proof.Laws
end

