-- ==== Sys2Proof/Laws/Port.lean ====
section
/-! SUPPORT. Everything a step can do, said once: nothing, hardware reset, a command accepted, a response delivered. -/

namespace Sys2Proof.Machine

theorem step_of_nil {s : State} (h : s.edges = []) : step s = .next s := by
  unfold step nextEdge; rw [h]

theorem step_of_cons {s : State} {e : ClockEdge} {rest : List ClockEdge} (h : s.edges = e :: rest) :
    step s = clockEdge e { s with edges := rest } := by
  unfold step nextEdge; rw [h]

/-- A word is run as a command or answered ILLEGAL_CMD. -/
theorem transact_cases {cmd arg : Word} {s t : State} (h : transact cmd arg s = .next t) :
    (∃ i, decode cmd arg = .instr i ∧ exec i s = .next t)
      ∨ ∃ why, decode cmd arg = .illegal why ∧ t = failState .illegalCmd s := by
  unfold transact at h
  split at h
  · exact .inl ⟨_, ‹_›, h⟩
  · exact .inr ⟨_, ‹_›, by simpa [fail] using h.symm⟩

theorem clockEdge_cases {e : ClockEdge} {s t : State} (h : clockEdge e s = .next t) :
    (e.rstN = false ∧ t = hardwareReset s)
      ∨ (e.rstN = true ∧ e.cmdValid = true ∧ s.outstanding = none ∧ transact e.cmdWord e.cmdArg s = .next t)
      ∨ (e.rstN = true ∧ e.busy = false ∧ e.rspReady = true ∧ (∃ r, s.outstanding = some r) ∧ t = deliver s)
      ∨ (e.rstN = true ∧ t = s ∧ (s.outstanding = none → e.cmdValid = false)
          ∧ ((∃ r, s.outstanding = some r) → e.busy = true ∨ e.rspReady = false)) := by
  unfold clockEdge cmdReady rspValid at h
  cases hr : e.rstN <;> cases hv : e.cmdValid <;> cases hb : e.busy <;> cases hy : e.rspReady <;>
    cases ho : s.outstanding <;> simp_all

theorem step_cases {s t : State} (h : step s = .next t) :
    (s.edges = [] ∧ t = s)
      ∨ ∃ e rest, s.edges = e :: rest ∧ clockEdge e { s with edges := rest } = .next t := by
  cases he : s.edges with
  | nil => exact .inl ⟨rfl, by simpa [step_of_nil he] using h.symm⟩
  | cons e rest => exact .inr ⟨e, rest, rfl, by rw [← step_of_cons he]; exact h⟩

end Sys2Proof.Machine
end

