-- ==== Sys2Proof/Laws/Stream.lean ====
section
/-! SUPPORT. The stream operations (42_streaming.md R86 to R90): what absorbing does in each case, and what it leaves. -/

namespace Sys2Proof.Machine

/-- With room in the buffer the byte is only appended. -/
theorem absorb_of_room {s : State} (b : Byte) (h : s.bufLen ≠ 64) : absorb s b = appendByte b s := by
  rw [absorb, if_neg h]

/-- With a full buffer the buffer is compressed first. -/
theorem absorb_of_full {s : State} (b : Byte) (h : s.bufLen = 64) : absorb s b = appendByte b (flush s) := by
  rw [absorb, if_pos h]

/-- Absorbing a byte writes H, T, BUF and BUFLEN only. -/
theorem absorb_frame (s : State) (b : Byte) :
    absorb s b = { s with h := (absorb s b).h, t := (absorb s b).t, buf := (absorb s b).buf,
                          bufLen := (absorb s b).bufLen } := by
  by_cases h : s.bufLen = 64
  · rw [absorb_of_full b h]; rfl
  · rw [absorb_of_room b h]; rfl

@[simp] theorem absorbAll_nil (s : State) : absorbAll [] s = s := rfl

@[simp] theorem absorbAll_cons (b : Byte) (l : List Byte) (s : State) :
    absorbAll (b :: l) s = absorbAll l (absorb s b) := rfl

/-- Absorbing a concatenation is absorbing its parts in order: the command boundaries do not matter (R92). -/
theorem absorbAll_append (l m : List Byte) (s : State) : absorbAll (l ++ m) s = absorbAll m (absorbAll l s) := by
  simp [absorbAll]

/-- Absorbing bytes writes H, T, BUF and BUFLEN only. -/
theorem absorbAll_frame (l : List Byte) (s : State) :
    absorbAll l s = { s with h := (absorbAll l s).h, t := (absorbAll l s).t, buf := (absorbAll l s).buf,
                             bufLen := (absorbAll l s).bufLen } := by
  induction l generalizing s with
  | nil => rfl
  | cons b l ih =>
    rw [absorbAll_cons]
    rw [ih (absorb s b), absorb_frame s b]

/-- Absorbing reads nothing but H, T, BUF and BUFLEN, and writes nothing else. -/
theorem absorb_congr {s t : State} (b : Byte) (hh : s.h = t.h) (ht : s.t = t.t) (hb : s.buf = t.buf)
    (hl : s.bufLen = t.bufLen) :
    (absorb s b).h = (absorb t b).h ∧ (absorb s b).t = (absorb t b).t ∧ (absorb s b).buf = (absorb t b).buf
      ∧ (absorb s b).bufLen = (absorb t b).bufLen := by
  by_cases h : s.bufLen = 64
  · rw [absorb_of_full b h, absorb_of_full b (hl ▸ h)]; simp [hh, ht, hb]
  · rw [absorb_of_room b h, absorb_of_room b (hl ▸ h)]; simp [hh, ht, hb, hl]

/-- The digest has DLEN bytes, at most 32. -/
theorem length_finalize (s : State) : (finalize s).length = min s.dlen.toNat 32 := by
  simp [finalize]

/-- Finalization reads H, T, BUF, BUFLEN, LASTNODE and DLEN only (R88). -/
theorem finalize_congr {s t : State} (hh : s.h = t.h) (ht : s.t = t.t) (hb : s.buf = t.buf) (hl : s.bufLen = t.bufLen)
    (hn : s.lastNode = t.lastNode) (hd : s.dlen = t.dlen) : finalize s = finalize t := by
  simp [finalize, hh, ht, hb, hl, hn, hd]

/-- Where BUF is zero from BUFLEN on, padding the retained bytes with zeros gives BUF itself (R88). -/
theorem keepFirst_eq_self {n : Nat} (len : Nat) (b : Vector Byte n) (h : ∀ i (hi : i < n), len ≤ i → b[i] = 0) :
    keepFirst len b = b := by
  apply Vector.ext
  intro i hi
  rw [getElem_keepFirst]
  split
  · rfl
  · rename_i hlt
    rw [h i hi (by omega)]

end Sys2Proof.Machine
end

