-- ==== Sys2Proof/Tests/Slice0.lean ====
section
/-! SUPPORT. Tests of the model's own. Expected values come from the spec: the tables of 95_test_vectors.md and the
encodings of 30_encoding.md. The witnesses at the end meet the hypotheses of the statements in Certificates/Slice0. -/

namespace Sys2Proof.Machine.Tests

-- One theorem at a time: elaborated side by side, the kernel evaluations below each hold a thread, and the check's
-- memory limit admits only a few dozen thread stacks.
set_option Elab.async false

/-! Small states: a default engine, an engine with the message "abc", a keyed engine. -/

/-- The state a command leaves, if it leaves one. -/
def nextOf (o : Host.Outcome State Fault Refusal) : Option State :=
  match o with
  | .next t => some t
  | .fault _ => none
  | .refused _ => none

/-- One thing about the state a command leaves. -/
def holdsNext (o : Host.Outcome State Fault Refusal) (f : State → Bool) : Bool := (nextOf o).any f

/-- The default engine, as INIT leaves it straight after reset. -/
def fresh : State := reinit (latchEngine State.reset)

/-- The default engine with "abc" absorbed. -/
def abcState : State := absorbAll [0x61, 0x62, 0x63] fresh

/-- Staging for the key 00..1F (95_test_vectors.md, PB2). -/
def keyStaged : State :=
  { State.reset with cfg := #v[0x00002000, 0, 0, 0], key := Vector.ofFn fun i => BitVec.ofNat 8 i.val }

/-- The keyed engine. -/
def keyedState : State := reinit (latchEngine keyStaged)

/-- The default engine with a full buffer of the bytes 00..3F. -/
def fullState : State := { fresh with buf := Vector.ofFn fun i => BitVec.ofNat 8 i.val, bufLen := 64 }

/-- Staging for a tree node (95_test_vectors.md, PB4). -/
def treeStaged : State :=
  { State.reset with cfg := #v[0, 0x20010302, 0x00010000, 0x12345678], cfg4 := 3 }

/-! WellFormed: one ill-formed term for each check, and the edges of the legal ranges (30_encoding.md R56). -/

theorem test_wf_cfg_wr_read_only : (Instr.cfgWr 0x20 0).wellFormed = false := by decide
theorem test_wf_cfg_wr_unmapped : (Instr.cfgWr 0x05 0).wellFormed = false := by decide
theorem test_wf_cfg_wr_last : (Instr.cfgWr 0x13 0).wellFormed = true := by decide
theorem test_wf_rd_unmapped : (Instr.rd 0x58).wellFormed = false := by decide
theorem test_wf_rd_last : (Instr.rd 0x57).wellFormed = true := by decide
theorem test_wf_write_five : (Instr.write 5 0).wellFormed = false := by decide
theorem test_wf_write_four : (Instr.write 4 0).wellFormed = true := by decide

/-! Decoding: for every constructor, a word written out from the pattern of 30_encoding.md R54. -/

theorem test_decode_nop : decode 0b0000000000000000_00000000_00000000 0xFFFFFFFF = .instr .nop := by decide
theorem test_decode_cfg_wr : decode 0b0000000000000000_00001011_00000001 7 = .instr (.cfgWr 0x0B 7) := by decide
theorem test_decode_rd : decode 0b0000000000000000_01010111_00000010 7 = .instr (.rd 0x57) := by decide
theorem test_decode_init : decode 0b0000000000000000_00000000_00000011 7 = .instr .init := by decide
theorem test_decode_reset : decode 0b0000000000000000_00000000_00000100 7 = .instr .reset := by decide
theorem test_decode_write : decode 0b0000000000000000_00000011_00000101 7 = .instr (.write 3 7) := by decide
theorem test_decode_sum : decode 0b0000000000000000_00000000_00000110 7 = .instr .sum := by decide
theorem test_decode_clrerr : decode 0b0000000000000000_00000000_00000111 7 = .instr .clrerr := by decide

/-- The ILLEGAL_CMD rows of 95_test_vectors.md 2.8, with the check of R55 that fails. -/
theorem test_decode_illegal :
    decode 0x00000008 0 = .illegal .unknownOpcode ∧ decode 0x000000FF 0 = .illegal .unknownOpcode
      ∧ decode 0x00010003 0 = .illegal .reservedBits ∧ decode 0x00000103 0 = .illegal .selNotZero
      ∧ decode 0x00000107 0 = .illegal .selNotZero ∧ decode 0x00000100 0 = .illegal .selNotZero := by decide

/-- Program lines of 95_test_vectors.md P2 and P3, assembled. -/
theorem test_encode_lines :
    encode (.write 3 0x00636261) = (0x00000305, 0x00636261) ∧ encode (.cfgWr 0x0F 0x1F1E1D1C) = (0x00000F01, 0x1F1E1D1C)
      ∧ encode (.rd 0x50) = (0x00005002, 0) ∧ encode .sum = (0x00000006, 0) := by decide

/-- The example of 30_encoding.md R60: WRITEB "abcde". -/
theorem test_writeb_abcde :
    writeb [0x61, 0x62, 0x63, 0x64, 0x65] = [.write 4 0x64636261, .write 1 0x00000065] := by decide

/-! The compression function (95_test_vectors.md 2.1, 2.2). -/

theorem test_rotr : rotr 0x12345678 12 = 0x67812345 ∧ rotr 0x12345678 7 = 0xF02468AC := by decide

/-- The "mixed" row of the table of G. -/
theorem test_g_mixed :
    mixG ⟨0x01234567, 0x89ABCDEF, 0xFEDCBA98, 0x76543210⟩ 0x0F1E2D3C 0x4B5A6978
      = ⟨0x61373950, 0xC24339DE, 0x5A736027, 0xE913B5D6⟩ := by decide

/-- F with every input zero: IV and SIGMA alone. -/
theorem test_f_zero :
    compressF (Vector.replicate 8 0) (Vector.replicate 64 0) 0 0 0
      = #v[0x6E26B02A, 0xA6A7800D, 0x51BB7B89, 0x1F01DB51, 0x077B942D, 0x23E6122A, 0xA37D48E1, 0x6E00C75E] := by
  decide +kernel

/-- F with a counter near its wrap: both halves of T enter. -/
theorem test_f_counter :
    compressF fresh.h (Vector.replicate 64 0) 0xFFFFFFFFFFFFFFC0 0 0
      = #v[0xF265930E, 0x803DD0FA, 0x80765401, 0x4F8FAFAA, 0x82A5F249, 0xEAC952F8, 0x5DD9CB22, 0xA3D9379F] := by
  decide +kernel

/-! One step of each command. -/

/-- NOP as the first instruction: OK, RDATA 0, LASTERR kept. -/
theorem test_nop_step :
    holdsNext (step ({ State.reset with lastErr := 3 }.withFetchWord 32 0)) (fun t =>
      t.outstanding == some ⟨0, 0⟩ && t.lastErr == 3) = true := by decide +kernel

/-- V5: CFG4 keeps bits 1:0. -/
theorem test_cfg_wr_cfg4 :
    holdsNext (exec (.cfgWr 0x04 0xFFFFFFFF) State.reset) (fun t => readReg t .cfg4 == 3) = true := by decide +kernel

/-- CFG_WR STATUS is BAD_SEL (2.8). -/
theorem test_cfg_wr_status :
    holdsNext (exec (.cfgWr 0x20 1) State.reset) (fun t => t == failed 0x02 State.reset) = true := by decide +kernel

/-- V8: RD INFO. -/
theorem test_rd_info :
    holdsNext (exec (.rd 0x22) fresh) (fun t => t.outstanding == some ⟨0, 0x00202040⟩) = true := by decide +kernel

/-- P2 line 5 without DVALID: STATUS after "abc"; BUF0 holds its bytes low byte first. -/
theorem test_rd_status_and_buf :
    holdsNext (exec (.rd 0x20) abcState) (fun t => t.outstanding == some ⟨0, 0x00030001⟩) = true
      ∧ holdsNext (exec (.rd 0x40) abcState) (fun t => t.outstanding == some ⟨0, 0x00636261⟩) = true := by
  decide +kernel

/-- PB4: INIT of a tree node. -/
theorem test_init_tree :
    holdsNext (exec .init treeStaged) (fun t =>
      t.p == #v[0x03020020, 0x00010000, 0x12345678, 0x20010000, 0, 0, 0, 0] && engcfgWord t == 0x00010020) = true := by
  decide +kernel

/-- The first failing check wins: SIZE 33 and KEY_LEN 33 give CFG_SIZE (2.3). -/
theorem test_init_bad :
    holdsNext (exec .init { State.reset with cfg := #v[0x00002121, 0, 0, 0] }) (fun t =>
      t.outstanding == some ⟨0x10, 0⟩ && t.lastErr == 0x10 && !t.configured) = true := by decide +kernel

/-- V2: RESET of a keyed engine that has absorbed four bytes reloads the key block. -/
theorem test_reset_keyed :
    holdsNext (exec .reset (absorbAll [0x61, 0x62, 0x63, 0x64] keyedState)) (fun t =>
      statusWord t == 0x00400001 && readReg t (.t 0) == 0 && readReg t (.buf 0) == 0x03020100
        && readReg t (.buf 7) == 0x1F1E1D1C && readReg t (.buf 8) == 0) = true := by decide +kernel

/-- 2.4, L = 65: the byte after a full buffer flushes it once. -/
theorem test_write_flush :
    holdsNext (exec (.write 1 0x40) fullState) (fun t =>
      t.t == 0x40 && t.bufLen == 1 && t.h[0] == 0x69B86EDC && readReg t (.buf 0) == 0x40) = true := by decide +kernel

/-- BAD_COUNT comes before NOT_CONFIGURED (2.8). -/
theorem test_write_errors :
    holdsNext (exec (.write 5 0) State.reset) (fun t => t.lastErr == 0x03) = true
      ∧ holdsNext (exec (.write 1 0) State.reset) (fun t => t.lastErr == 0x04) = true := by decide +kernel

/-- E6b: the digest of "abc"; RDATA = 32, and the stream registers stay. -/
theorem test_sum_abc :
    holdsNext (exec .sum abcState) (fun t =>
      t.digest == #v[0x50, 0x8c, 0x5e, 0x8c, 0x32, 0x7c, 0x14, 0xe2, 0xe1, 0xa7, 0x2b, 0xa3, 0x4e, 0xeb, 0x45, 0x2f, 0x37, 0x45, 0x8b, 0x20, 0x9e, 0xd6, 0x3a, 0x29, 0x4d, 0x99, 0x9b, 0x4c, 0x86, 0x67, 0x59, 0x82]
        && t.outstanding == some ⟨0, 32⟩ && t.dvalid && t.bufLen == 3 && t.t == 0) = true := by decide +kernel

/-- 2.5: the digest of the empty message under the key 00..1F, one final compression of the key block. -/
theorem test_sum_keyed_empty :
    holdsNext (exec .sum keyedState) (fun t =>
      t.digest == #v[0x48, 0xa8, 0x99, 0x7d, 0xa4, 0x07, 0x87, 0x6b, 0x3d, 0x79, 0xc0, 0xd9, 0x23, 0x25, 0xad, 0x3b, 0x89, 0xcb, 0xb7, 0x54, 0xd8, 0x6a, 0xb7, 0x1a, 0xee, 0x04, 0x7a, 0xd3, 0x45, 0xfd, 0x2c, 0x49])
      = true := by decide +kernel

/-- 2.8: CLRERR after a failure. -/
theorem test_clrerr :
    holdsNext (exec .clrerr (failed 0x03 fresh)) (fun t => t == answered fresh 0) = true := by decide +kernel

/-- A word with reserved bits is answered ILLEGAL_CMD by the step itself (2.8). -/
theorem test_step_illegal :
    holdsNext (step (State.reset.withFetchWord 32 0x00010003)) (fun t => t == failed 0x01 State.reset) = true := by
  decide +kernel

/-! The port (30_encoding.md R50, 70_reset_and_hazards.md R121, R122). -/

/-- While a response is outstanding an offered command is not accepted, and a busy edge delivers nothing. -/
theorem test_port_waits :
    holdsNext (step { answered fresh 5 with edges := [{ commandEdge 0x00000006 0 with busy := true }] }) (fun t =>
      t == answered fresh 5) = true := by decide +kernel

/-- The response is delivered at an edge where it is taken. -/
theorem test_port_delivers :
    holdsNext (step { answered fresh 5 with edges := [takeEdge] }) (fun t =>
      t == { fresh with delivered := [⟨0, 5⟩] }) = true := by decide +kernel

/-- Hardware reset discards the outstanding command. -/
theorem test_port_reset :
    holdsNext (step { answered abcState 5 with edges := [resetEdge, takeEdge] }) (fun t =>
      t == { State.reset with edges := [takeEdge] }) = true := by decide +kernel

/-! Witnesses: for every statement with hypotheses, a concrete state and operands that meet them together, for each
clause and at the ends of its range. -/

/-- A staged configuration with every length at its maximum, tree mode and INNER_SIZE = 32. -/
def maxStaged : State :=
  { State.reset with cfg := #v[0x08082020, 0x20010302, 5, 7], cfg4 := 3, key := Vector.replicate 32 0xA5 }

theorem witness_DecodeChecksInOrder :
    ((0x00010000 : Word).toNat / 2 ^ 16 ≠ 0 ∧ (0xFFFFFF00 : Word).toNat / 2 ^ 16 ≠ 0)
      ∧ ((0x0000FF08 : Word).toNat / 2 ^ 16 = 0 ∧ 8 ≤ (0x0000FF08 : Word).toNat % 2 ^ 8)
      ∧ ((0x00000107 : Word).toNat % 2 ^ 8 < 8 ∧ (0x00000107 : Word).toNat / 2 ^ 8 % 2 ^ 8 ≠ 0)
      ∧ (∀ opc : Fin 8, (BitVec.ofNat 32 opc.val).toNat / 2 ^ 16 = 0 ∧ (BitVec.ofNat 32 opc.val).toNat % 2 ^ 8 = opc.val
          ∧ (BitVec.ofNat 32 opc.val).toNat / 2 ^ 8 % 2 ^ 8 = 0)
      ∧ (0x0000FF05 : Word).toNat / 2 ^ 16 = 0 ∧ (0x0000FF05 : Word).toNat % 2 ^ 8 = 5
      ∧ decode 0x00000108 0 = .illegal .unknownOpcode ∧ decode 0x0000FF05 0 = .instr (.write 0xFF 0) := by decide

theorem witness_OneWordPerCommand :
    decode 0x0000FF01 0xFFFFFFFF = .instr (.cfgWr 0xFF 0xFFFFFFFF) ∧ decode 0x00000002 9 = .instr (.rd 0) := by decide

theorem witness_StepRunsAcceptedCommand :
    let s := { fresh with edges := [commandEdge 0x00000006 9, takeEdge] }
    s.edges = commandEdge 0x00000006 9 :: [takeEdge] ∧ (commandEdge 0x00000006 9).rstN = true
      ∧ (commandEdge 0x00000006 9).cmdValid = true ∧ s.outstanding = none ∧ decode 0x00000006 9 = .instr .sum
      ∧ decodeTableWord 32 0x00000405 = some (.write 4 0) ∧ decodeTableWord 64 0xFFFFFFFF00000001
          = some (.cfgWr 0 0xFFFFFFFF) := by decide +kernel

theorem witness_StepAnswersIllegalWord :
    let s := { abcState with edges := [commandEdge 0x00000100 0] }
    s.edges = commandEdge 0x00000100 0 :: [] ∧ s.outstanding = none ∧ decode 0x00000100 0 = .illegal .selNotZero
      ∧ (commandEdge 0x00000100 0).rstN = true ∧ (commandEdge 0x00000100 0).cmdValid = true := by decide +kernel

theorem witness_HandshakeHoldsOneCommand :
    ({ fresh with edges := [takeEdge] }.outstanding = none ∧ takeEdge.cmdValid = false ∧ takeEdge.rstN = true)
      ∧ (answered fresh 1).outstanding = some ⟨0, 1⟩ ∧ takeEdge.rspReady = true ∧ takeEdge.busy = false
      ∧ waitEdge.busy = true ∧ waitEdge.rstN = true := by decide +kernel

theorem witness_HardwareResetDiscardsCommand :
    { answered abcState 3 with edges := [resetEdge, takeEdge] }.edges = resetEdge :: [takeEdge]
      ∧ resetEdge.rstN = false := by decide +kernel

theorem witness_OneResponsePerCommand :
    holdsNext (step { fresh with edges := [commandEdge 0 0] }) (fun t => responsesOwed t == 1) = true
      ∧ cmdReady (commandEdge 0 0) fresh = true ∧ cmdReady takeEdge (answered fresh 1) = false := by decide +kernel

theorem witness_LatencyChangesNothing :
    let x : Transaction := ⟨commandEdge 0x00000003 0, [waitEdge, commandEdge 1 1 |> fun e => { e with busy := true }],
      takeEdge⟩
    let y : Transaction := ⟨commandEdge 0x00000006 0, [], commandEdge 0 0⟩
    let s := { State.reset with edges := [x, y].flatMap Transaction.edges ++ [waitEdge] }
    (∀ z ∈ [x, y], z.legal = true) ∧ s.outstanding = none
      ∧ s.edges = [x, y].flatMap Transaction.edges ++ [waitEdge] := by decide +kernel

theorem witness_NopWritesNothing :
    (0x00000100 : Word).toNat % 2 ^ 8 = 0 ∧ (0x00000100 : Word) ≠ 0 ∧ (0xFFFFFF00 : Word).toNat % 2 ^ 8 = 0 := by decide

theorem witness_ClrerrClearsLastErr :
    (0x00000107 : Word).toNat % 2 ^ 8 = 7 ∧ (0x00000107 : Word) ≠ 7 ∧ (0xFFFF0007 : Word).toNat % 2 ^ 8 = 7 := by decide

theorem witness_RdReadsEveryRegister :
    (0x05 ≤ (0x05 : Byte).toNat ∧ (0x07 : Byte).toNat ≤ 0x07) ∧ (0x14 ≤ (0x14 : Byte).toNat ∧ (0x1F : Byte).toNat ≤ 0x1F)
      ∧ (0x23 ≤ (0x23 : Byte).toNat ∧ (0x27 : Byte).toNat ≤ 0x27)
      ∧ (0x3A ≤ (0x3A : Byte).toNat ∧ (0x3F : Byte).toNat ≤ 0x3F) ∧ 0x58 ≤ (0x58 : Byte).toNat
      ∧ 0x58 ≤ (0xFF : Byte).toNat
      ∧ (0x00012202 : Word).toNat % 2 ^ 8 = 2 ∧ (0x00012202 : Word).toNat / 2 ^ 16 ≠ 0 := by decide

theorem witness_RdReadsEveryRegister_beyond :
    BufferOk abcState ∧ abcState.bufLen.toNat ≤ 4 * 1 ∧ BufferOk fullState ∧ ¬fullState.bufLen.toNat ≤ 4 * 15 := by
  unfold BufferOk; decide +kernel

theorem witness_CfgWrStoresStagingRegister :
    (0x05 ≤ (0x05 : Byte).toNat ∧ (0x07 : Byte).toNat ≤ 0x07) ∧ 0x14 ≤ (0x14 : Byte).toNat ∧ 0x14 ≤ (0xFF : Byte).toNat
      ∧ (0x00010001 : Word).toNat % 2 ^ 8 = 1 ∧ (0x00010001 : Word).toNat / 2 ^ 16 ≠ 0 := by decide

theorem witness_CfgWrReadsBack :
    selWritable 0x00 = true ∧ selWritable 0x04 = true ∧ selWritable 0x08 = true ∧ selWritable 0x13 = true
      ∧ selReadable 0x20 = true ∧ selReadable 0x0F = true ∧ (0x20 : Byte) ≠ 0x00 := by decide

/-- CFG0 at each length just above its bound, the checks before it passing, and INNER_SIZE = 33 in tree mode. -/
theorem witness_InitChecksInOrder :
    32 < (wordByte 0x00000021 0).toNat
      ∧ ((wordByte 0x00002120 0).toNat ≤ 32 ∧ 32 < (wordByte 0x00002120 1).toNat)
      ∧ ((wordByte 0x00092020 0).toNat ≤ 32 ∧ (wordByte 0x00092020 1).toNat ≤ 32 ∧ 8 < (wordByte 0x00092020 2).toNat)
      ∧ ((wordByte 0x09082020 2).toNat ≤ 8 ∧ 8 < (wordByte 0x09082020 3).toNat)
      ∧ ((3 : BitVec 2).getLsbD 0 = true ∧ 32 < (wordByte 0x21000000 3).toNat ∧ (wordByte 0x08082020 3).toNat ≤ 8)
      ∧ ¬((3 : BitVec 2).getLsbD 0 = true ∧ 32 < (wordByte 0x20000000 3).toNat) := by decide

/-- A legal configuration at its smallest and at its largest, for InitBuildsEngine, ParameterBlockLayout,
KeyBlockOpensStream, ResetEquivalence, EngineComputesBlake2s and BoundaryBehaviour. -/
theorem witness_ConfigLegal : ConfigLegal State.reset ∧ ConfigLegal maxStaged ∧ ConfigLegal keyStaged := by
  unfold ConfigLegal; decide +kernel

theorem witness_KeyBlockOpensStream :
    (wordByte State.reset.cfg[0] 1).toNat = 0 ∧ 0 < (wordByte maxStaged.cfg[0] 1).toNat
      ∧ keyedState.configured = true ∧ EngineOk keyedState ∧ keyedState.klen ≠ 0
      ∧ fresh.configured = true ∧ EngineOk fresh ∧ fresh.klen = 0 := by
  unfold EngineOk; decide +kernel

theorem witness_WriteChecksAndFrame :
    4 < (5 : Byte).toNat ∧ (4 : Byte).toNat ≤ 4 ∧ State.reset.configured = false ∧ fresh.configured = true := by
  decide +kernel

theorem witness_WriteOfNoBytesChangesNothing : fresh.configured = true := by decide +kernel

/-- Room for four bytes at BUFLEN = 60, none at 64 for N = 0. -/
theorem witness_WriteWithRoomOnlyBuffers :
    let s := { fresh with bufLen := 60 }
    s.configured = true ∧ (4 : Byte).toNat ≤ 4 ∧ s.bufLen.toNat + (4 : Byte).toNat ≤ 64
      ∧ fullState.bufLen.toNat + (0 : Byte).toNat ≤ 64 := by decide +kernel

/-- Overrun by one byte at BUFLEN = 61, by four at 64: for WriteFlushesOnce and CounterCarriesAndWraps, with T about to
carry and about to wrap. -/
theorem witness_WriteFlushesOnce :
    let s := { fresh with bufLen := 61, t := 0xFFFFFFC0 }
    let u := { fullState with t := 0xFFFFFFFFFFFFFFC0 }
    s.configured = true ∧ (4 : Byte).toNat ≤ 4 ∧ s.bufLen.toNat ≤ 64 ∧ 64 < s.bufLen.toNat + (4 : Byte).toNat
      ∧ u.configured = true ∧ u.bufLen.toNat ≤ 64 ∧ 64 < u.bufLen.toNat + (4 : Byte).toNat := by decide +kernel

theorem witness_UnusedArgBitsIgnored :
    (∀ k, k < (3 : Byte).toNat → wordByte 0xFF636261 k = wordByte 0x00636261 k)
      ∧ (0x00000006 : Word).toNat % 2 ^ 8 ≠ 1 ∧ (0x00000006 : Word).toNat % 2 ^ 8 ≠ 5 := by decide

theorem witness_SumWritesDigest :
    State.reset.configured = false ∧ abcState.configured = true ∧ (0x00000106 : Word).toNat % 2 ^ 8 = 6
      ∧ (0x00000106 : Word) ≠ 6 := by decide +kernel

theorem witness_SumIsIdempotent :
    exec .sum State.reset = .next (failState .notConfigured State.reset) ∧ (nextOf (exec .sum abcState)).isSome = true :=
  ⟨rfl, by decide +kernel⟩

theorem witness_SumDoesNotDisturbStream : abcState.configured = true := by decide +kernel

theorem witness_ResetRestartsStream :
    State.reset.configured = false ∧ keyedState.configured = true ∧ (0x00010004 : Word).toNat % 2 ^ 8 = 4
      ∧ (0x00010004 : Word) ≠ 4 := by decide +kernel

/-- V10: "ab" and then "c", with a zero-length chunk between, against "abc" in one WRITE. -/
theorem witness_StreamingEquivalence :
    fresh.configured = true
      ∧ CountsLegal [(2, 0xFFFF6261), (0, 0xFFFFFFFF), (1, 0x00000063)] ∧ CountsLegal [(3, 0x00636261)]
      ∧ writtenBytes [(2, 0xFFFF6261), (0, 0xFFFFFFFF), (1, 0x00000063)] = writtenBytes [(3, 0x00636261)] :=
  ⟨by decide +kernel, by simp [CountsLegal], by simp [CountsLegal], by decide +kernel⟩

theorem witness_CountsLegal : CountsLegal [] ∧ CountsLegal [(4, 0x64636261), (0, 0)] := by
  simp [CountsLegal]

/-- A stream that stands for "abc", the empty one, and one whose buffer is full. -/
theorem witness_WriteExtendsMessage :
    abcState.configured = true ∧ (4 : Byte).toNat ≤ 4 ∧ StreamHolds abcState [0x61, 0x62, 0x63]
      ∧ StreamHolds fresh [] ∧ StreamHolds fullState ((List.range 64).map (BitVec.ofNat 8)) := by
  unfold StreamHolds; decide +kernel

theorem witness_RotrMovesTowardBitZero : 0 < 1 ∧ 1 < 32 ∧ 0 < 31 ∧ 31 < 32 ∧ 0 < 32 := by decide

theorem witness_GroupedMixesCommute : (0 : Fin 4) ≠ 3 := by decide

theorem witness_StepKeepsRegistersLegal :
    BufferOk keyedState ∧ EngineOk keyedState ∧ NoEngineOk keyedState ∧ NoEngineOk State.reset
      ∧ (nextOf (step (keyedState.withFetchWord 64 0x0000000000000405))).isSome = true :=
  ⟨by unfold BufferOk; decide +kernel, by unfold EngineOk; decide +kernel, nofun, fun _ => by decide +kernel,
    by decide +kernel⟩

/-- A state in which DVALID is 1 and DIGEST is current. -/
theorem witness_StepKeepsDigestCurrent :
    let s := { abcState with digest := padTo 32 (finalize abcState), dvalid := true }
    DigestOk s ∧ s.dvalid = true ∧ (nextOf (step (s.withFetchWord 32 0x00000005))).isSome = true := by
  unfold DigestOk; decide +kernel

theorem witness_StepKeepsHistory :
    HistoryOk keyedState ∧ keyedState.configured = true
      ∧ (nextOf (step (keyedState.withFetchWord 32 0x00000105))).isSome = true :=
  ⟨fun _ => ⟨[], by unfold StreamHolds; decide +kernel⟩, by decide +kernel, by decide +kernel⟩

theorem witness_StepKeepsCodesListed :
    CodesOk (failed 0x14 State.reset) ∧ CodesOk { answered fresh 7 with edges := [takeEdge] } := by
  refine ⟨⟨by decide +kernel, ?_, ?_⟩, ⟨by decide +kernel, ?_, ?_⟩⟩ <;> intro r hr
  · obtain rfl : r = ⟨0x14, 0⟩ := by simpa [failed] using hr.symm
    unfold responseOk; decide
  · simp [failed, State.reset] at hr
  · obtain rfl : r = ⟨0, 7⟩ := by simpa [answered] using hr.symm
    unfold responseOk; decide
  · simp [answered, fresh, latchEngine, State.reset] at hr

/-- A command that fails and one that succeeds, for FailedCommandChangesOnlyLastErr and LastErrFollowsFailures. -/
theorem witness_LastErrFollowsFailures :
    holdsNext (transact 0x00000505 0 fresh) (fun t => t.outstanding == some ⟨0x03, 0⟩) = true
      ∧ holdsNext (transact 0x00000007 0 fresh) (fun t => t.outstanding == some ⟨0x00, 0⟩) = true
      ∧ decode 0x00000007 0 = .instr .clrerr ∧ holdsNext (transact 0 0 fresh) (fun t => t.outstanding == some ⟨0, 0⟩) = true
      ∧ decode 0 0 ≠ .instr .clrerr := by decide +kernel

theorem witness_StreamCommandsNeedEngine :
    State.reset.configured = false ∧ (0 : Byte).toNat ≤ 4 ∧ (4 : Byte).toNat ≤ 4
      ∧ holdsNext (exec .init State.reset) (fun t => t.configured) = true := by decide +kernel

theorem witness_ConfiguredStaysSet :
    let s := { fresh with edges := [commandEdge 0x00000003 0] }
    s.edges = commandEdge 0x00000003 0 :: [] ∧ s.configured = true ∧ (nextOf (step s)).isSome = true := by decide +kernel

/-- A command other than INIT, an INIT that fails, and a CFG_WR that succeeds. -/
theorem witness_EngineImmutableBetweenInits :
    (nextOf (exec .reset fresh)).isSome = true ∧ Instr.reset ≠ .init
      ∧ holdsNext (exec .init { fresh with cfg := #v[0x21, 0, 0, 0] })
          (fun t => t.outstanding != some ⟨0x00, 0⟩) = true
      ∧ holdsNext (exec (.cfgWr 0x13 5) fresh) (fun t => t.outstanding == some ⟨0x00, 0⟩) = true := by decide +kernel

theorem witness_OnlyListedCommandsWrite :
    (nextOf (exec .sum fresh)).isSome = true ∧ (∀ sel arg, Instr.sum ≠ .cfgWr sel arg) ∧ Instr.sum ≠ .init
      ∧ Instr.sum ≠ .reset ∧ (∀ n arg, Instr.sum ≠ .write n arg) ∧ Instr.rd 0 ≠ .sum :=
  ⟨by decide +kernel, nofun, nofun, nofun, nofun, nofun⟩

/-- RD of CFG0 succeeds, and is none of the commands that write DVALID or LASTERR. -/
theorem witness_OnlyListedCommandsWrite_flags :
    exec (.rd 0) fresh = .next (answered fresh 0) ∧ (answered fresh 0).outstanding = some ⟨0x00, 0⟩
      ∧ Instr.rd 0 ≠ .sum ∧ Instr.rd 0 ≠ .init ∧ Instr.rd 0 ≠ .reset ∧ (∀ n arg, Instr.rd 0 ≠ .write n arg)
      ∧ Instr.rd 0 ≠ .clrerr :=
  ⟨by rfl, rfl, nofun, nofun, nofun, nofun, nofun⟩

theorem witness_WritebFeedsItsBytes : fresh.configured = true ∧ (writeb [0x61]).length = 1 := by decide +kernel

theorem witness_PseudoInstructionsStageAndRead :
    ([] : List Byte).length ≤ 8 ∧ (List.replicate 8 (0x4D : Byte)).length ≤ 8 := by decide

end Sys2Proof.Machine.Tests
end

section
/-! The accepting edge of the command port, for commands and for words that are none, and the statement about the
command a step runs (00_scope.md R12, 30_encoding.md R50). -/

namespace Sys2Proof.Machine

theorem transact_of_instr {cmd arg : Word} {i : Instr} (h : decode cmd arg = .instr i) (s : State) :
    transact cmd arg s = exec i s := by
  unfold transact; rw [h]

theorem clockEdge_of_accept {e : ClockEdge} {s : State} (hrst : e.rstN = true) (hvalid : e.cmdValid = true)
    (hready : s.outstanding = none) : clockEdge e s = transact e.cmdWord e.cmdArg s := by
  simp [clockEdge, cmdReady, hrst, hvalid, hready]

/-- The edge at the head of the list, when it is out of reset and offers a word to a ready port, is a transaction on
the state with that edge consumed. -/
theorem step_of_accept {s : State} {e : ClockEdge} {rest : List ClockEdge} (hedges : s.edges = e :: rest)
    (hrst : e.rstN = true) (hvalid : e.cmdValid = true) (hready : s.outstanding = none) :
    step s = transact e.cmdWord e.cmdArg { s with edges := rest } :=
  (step_of_cons hedges).trans (clockEdge_of_accept hrst hvalid hready)

theorem step_commandEdge (cmd arg : Word) {s : State} (hready : s.outstanding = none) :
    step { s with edges := commandEdge cmd arg :: s.edges } = transact cmd arg s :=
  step_of_accept (e := commandEdge cmd arg) (rest := s.edges) rfl rfl rfl hready

/-- What `presentCommand` is for: its edge is accepted, and consuming it gives back the state with the outstanding
response delivered. -/
theorem step_presentCommand (cmd arg : Word) (s : State) :
    step (presentCommand cmd arg s) = transact cmd arg (deliver s) :=
  step_commandEdge cmd arg (deliver_outstanding s)

theorem decode_of_decodeTableWord {nbits w : Nat} {i : Instr} (h : decodeTableWord nbits w = some i) :
    decode (tableCmd nbits w) (tableArg nbits w) = .instr i := by
  unfold decodeTableWord at h
  split at h
  · next hdec => rw [hdec, Option.some.inj h]
  · cases h

/-- Settles O6: the accepted edge is a transaction, and a transaction on a word that decodes runs the command. -/
theorem stepRunsAcceptedCommand : Obligations.StepRunsAcceptedCommand := by
  refine ⟨fun s e rest i hedges hrst hvalid hready hdec => ?_, fun s nbits w i hdec => ?_⟩
  · rw [step_of_accept hedges hrst hvalid hready, transact_of_instr hdec]
  · rw [State.withFetchWord, step_presentCommand, transact_of_instr (decode_of_decodeTableWord hdec)]

end Sys2Proof.Machine
end

section
/-! The direction of rotr (00_scope.md R9). -/

namespace Sys2Proof.Machine

/-- The spec's formula is the library's rotation as long as the count is below the width. -/
theorem rotr_eq_rotateRight (x : Word) {n : Nat} (hn : n < 32) : rotr x n = x.rotateRight n :=
  (BitVec.rotateRight_eq_rotateRightAux_of_lt hn).symm

/-- Settles O41: below 32 - n the bit comes from the right shift, above from the wrapped low part. -/
theorem rotrMovesTowardBitZero : Obligations.RotrMovesTowardBitZero := by
  intro x n i _ hn hi
  rw [rotr_eq_rotateRight x hn, BitVec.getLsbD_rotateRight, Nat.mod_eq_of_lt hn]
  by_cases hlow : i < 32 - n
  · have hsrc : (i + n) % 32 = n + i := by omega
    simp [hlow, hsrc]
  · have hsrc : (i + n) % 32 = i - (32 - n) := by omega
    simp [hlow, hi, hsrc]

end Sys2Proof.Machine
end

section
/-! What a command can do, said once: for each command the errors it reports, with the check that fails
(60_exceptions.md R105), and the state a success leaves, with its guard and RDATA (30_encoding.md R53). -/

namespace Sys2Proof.Machine

/-- The command fails on the state with the code. -/
inductive FailsWith : Instr → State → RC → Prop
  | cfgWr {sel arg s} (hsel : (regOfSel sel).bind (writeReg s arg) = none) : FailsWith (.cfgWr sel arg) s .badSel
  | rd {sel s} (hsel : regOfSel sel = none) : FailsWith (.rd sel) s .badSel
  | init {s rc} (hcfg : validate s = some rc) : FailsWith .init s rc
  | reset {s} (heng : s.configured = false) : FailsWith .reset s .notConfigured
  | writeCount {n arg s} (hcount : 4 < n.toNat) : FailsWith (.write n arg) s .badCount
  | writeEngine {n arg s} (hcount : n.toNat ≤ 4) (heng : s.configured = false) :
      FailsWith (.write n arg) s .notConfigured
  | sum {s} (heng : s.configured = false) : FailsWith .sum s .notConfigured

/-- The command succeeds on the first state, leaves the second one, and answers RDATA; the response itself is not yet
in the second state. -/
inductive Succeeds : Instr → State → State → Word → Prop
  | nop {s} : Succeeds .nop s s 0
  | cfgWr {sel arg r s u} (hsel : regOfSel sel = some r) (hwrite : writeReg s arg r = some u) :
      Succeeds (.cfgWr sel arg) s u 0
  | rd {sel r s} (hsel : regOfSel sel = some r) : Succeeds (.rd sel) s s (readReg s r)
  | init {s} (hcfg : validate s = none) : Succeeds .init s (reinit (latchEngine s)) 0
  | reset {s} (heng : s.configured = true) : Succeeds .reset s (reinit s) 0
  | write {n arg s} (hcount : n.toNat ≤ 4) (heng : s.configured = true) :
      Succeeds (.write n arg) s
        { absorbAll (writeBytes n.toNat arg) s with dvalid := s.dvalid && n == 0 } (n.setWidth 32)
  | sum {s} (heng : s.configured = true) :
      Succeeds .sum s { s with digest := padTo 32 (finalize s), dvalid := true } (s.dlen.setWidth 32)
  | clrerr {s} : Succeeds .clrerr s { s with lastErr := 0 } 0

/-! What absorbing message bytes leaves unchanged, field by field. -/

section
variable (l : List Byte) (s : State)

@[simp] theorem absorbAll_cfg : (absorbAll l s).cfg = s.cfg := by rw [absorbAll_frame]
@[simp] theorem absorbAll_cfg4 : (absorbAll l s).cfg4 = s.cfg4 := by rw [absorbAll_frame]
@[simp] theorem absorbAll_key : (absorbAll l s).key = s.key := by rw [absorbAll_frame]
@[simp] theorem absorbAll_salt : (absorbAll l s).salt = s.salt := by rw [absorbAll_frame]
@[simp] theorem absorbAll_pers : (absorbAll l s).pers = s.pers := by rw [absorbAll_frame]
@[simp] theorem absorbAll_configured : (absorbAll l s).configured = s.configured := by rw [absorbAll_frame]
@[simp] theorem absorbAll_dlen : (absorbAll l s).dlen = s.dlen := by rw [absorbAll_frame]
@[simp] theorem absorbAll_klen : (absorbAll l s).klen = s.klen := by rw [absorbAll_frame]
@[simp] theorem absorbAll_keyl : (absorbAll l s).keyl = s.keyl := by rw [absorbAll_frame]
@[simp] theorem absorbAll_lastNode : (absorbAll l s).lastNode = s.lastNode := by rw [absorbAll_frame]
@[simp] theorem absorbAll_p : (absorbAll l s).p = s.p := by rw [absorbAll_frame]
@[simp] theorem absorbAll_digest : (absorbAll l s).digest = s.digest := by rw [absorbAll_frame]
@[simp] theorem absorbAll_dvalid : (absorbAll l s).dvalid = s.dvalid := by rw [absorbAll_frame]
@[simp] theorem absorbAll_lastErr : (absorbAll l s).lastErr = s.lastErr := by rw [absorbAll_frame]
@[simp] theorem absorbAll_outstanding : (absorbAll l s).outstanding = s.outstanding := by rw [absorbAll_frame]
@[simp] theorem absorbAll_edges : (absorbAll l s).edges = s.edges := by rw [absorbAll_frame]
@[simp] theorem absorbAll_delivered : (absorbAll l s).delivered = s.delivered := by rw [absorbAll_frame]

end

/-- Every command on every state fails with a code it can report, or succeeds. -/
theorem exec_outcome (i : Instr) (s : State) :
    (∃ rc, FailsWith i s rc ∧ exec i s = .next (failState rc s))
      ∨ ∃ u v, Succeeds i s u v ∧ exec i s = .next (withResponse .ok v u) := by
  cases i with
  | nop => exact .inr ⟨_, _, .nop, rfl⟩
  | cfgWr sel arg =>
    cases hsel : (regOfSel sel).bind (writeReg s arg) with
    | none => exact .inl ⟨_, .cfgWr hsel, by simp [exec, execCfgWr, hsel, fail]⟩
    | some u =>
      obtain ⟨r, hreg, hwrite⟩ := Option.bind_eq_some_iff.mp hsel
      exact .inr ⟨_, _, .cfgWr hreg hwrite, by simp [exec, execCfgWr, hsel, respond]⟩
  | rd sel =>
    cases hsel : regOfSel sel with
    | none => exact .inl ⟨_, .rd hsel, by simp [exec, execRd, hsel, fail]⟩
    | some r => exact .inr ⟨_, _, .rd hsel, by simp [exec, execRd, hsel, respond]⟩
  | init =>
    cases hcfg : validate s with
    | none => exact .inr ⟨_, _, .init hcfg, by simp [exec, execInit, hcfg, respond]⟩
    | some rc => exact .inl ⟨_, .init hcfg, by simp [exec, execInit, hcfg, fail]⟩
  | reset =>
    cases heng : s.configured with
    | false => exact .inl ⟨_, .reset heng, by simp [exec, execReset, heng, fail]⟩
    | true => exact .inr ⟨_, _, .reset heng, by simp [exec, execReset, heng, respond]⟩
  | write n arg =>
    by_cases hcount : n.toNat ≤ 4
    · have hnot : ¬ Config.maxWriteBytes < n.toNat := Nat.not_lt.mpr hcount
      cases heng : s.configured with
      | false => exact .inl ⟨_, .writeEngine hcount heng, by simp [exec, execWrite, hnot, heng, fail]⟩
      | true => exact .inr ⟨_, _, .write hcount heng, by simp [exec, execWrite, hnot, heng, respond]⟩
    · have hbad : Config.maxWriteBytes < n.toNat := Nat.lt_of_not_le hcount
      exact .inl ⟨_, .writeCount hbad, by simp [exec, execWrite, hbad, fail]⟩
  | sum =>
    cases heng : s.configured with
    | false => exact .inl ⟨_, .sum heng, by simp [exec, execSum, heng, fail]⟩
    | true => exact .inr ⟨_, _, .sum heng, by simp [exec, execSum, heng, respond]⟩
  | clrerr => exact .inr ⟨_, _, .clrerr, rfl⟩

/-- What is known of a command that has left a state. -/
theorem exec_cases {i : Instr} {s t : State} (h : exec i s = .next t) :
    (∃ rc, FailsWith i s rc ∧ t = failState rc s) ∨ ∃ u v, Succeeds i s u v ∧ t = withResponse .ok v u := by
  rcases exec_outcome i s with ⟨rc, hfail, he⟩ | ⟨u, v, hok, he⟩ <;> rw [h, Host.Outcome.next.injEq] at he
  · exact .inl ⟨rc, hfail, he⟩
  · exact .inr ⟨u, v, hok, he⟩

/-- No failing command reports OK. -/
theorem FailsWith.codeOf_ne_ok {i : Instr} {s : State} {rc : RC} (h : FailsWith i s rc) : codeOf rc ≠ 0x00 := by
  cases h with
  | init hcfg => rcases validate_code hcfg with rfl | rfl | rfl | rfl | rfl <;> decide
  | cfgWr | rd | reset | writeCount | writeEngine | sum => decide

/-! What a successful command leaves unchanged: the "written by" column of 10_state.md R13, element by element. -/

section
variable {i : Instr} {s u : State} {v : Word}

theorem Succeeds.staging_frame (h : Succeeds i s u v) (hi : ∀ sel arg, i ≠ .cfgWr sel arg) :
    u.cfg = s.cfg ∧ u.cfg4 = s.cfg4 ∧ u.key = s.key ∧ u.salt = s.salt ∧ u.pers = s.pers := by
  cases h with
  | cfgWr => exact absurd rfl (hi _ _)
  | nop | rd | init | reset | write | sum | clrerr => simp

theorem Succeeds.engine_frame (h : Succeeds i s u v) (hi : i ≠ .init) :
    u.configured = s.configured ∧ u.dlen = s.dlen ∧ u.klen = s.klen ∧ u.keyl = s.keyl ∧ u.lastNode = s.lastNode
      ∧ u.p = s.p := by
  cases h with
  | init => exact absurd rfl hi
  | cfgWr _ hwrite => rw [writeReg_frame hwrite]; simp
  | nop | rd | reset | write | sum | clrerr => simp

theorem Succeeds.stream_frame (h : Succeeds i s u v) (hinit : i ≠ .init) (hreset : i ≠ .reset)
    (hwr : ∀ n arg, i ≠ .write n arg) : u.h = s.h ∧ u.t = s.t ∧ u.buf = s.buf ∧ u.bufLen = s.bufLen := by
  cases h with
  | init => exact absurd rfl hinit
  | reset => exact absurd rfl hreset
  | write => exact absurd rfl (hwr _ _)
  | cfgWr _ hwrite => rw [writeReg_frame hwrite]; simp
  | nop | rd | sum | clrerr => simp

theorem Succeeds.digest_frame (h : Succeeds i s u v) (hi : i ≠ .sum) : u.digest = s.digest := by
  cases h with
  | sum => exact absurd rfl hi
  | cfgWr _ hwrite => rw [writeReg_frame hwrite]
  | nop | rd | init | reset | write | clrerr => simp

theorem Succeeds.dvalid_frame (h : Succeeds i s u v) (hsum : i ≠ .sum) (hinit : i ≠ .init) (hreset : i ≠ .reset)
    (hwr : ∀ n arg, i ≠ .write n arg) : u.dvalid = s.dvalid := by
  cases h with
  | sum => exact absurd rfl hsum
  | init => exact absurd rfl hinit
  | reset => exact absurd rfl hreset
  | write => exact absurd rfl (hwr _ _)
  | cfgWr _ hwrite => rw [writeReg_frame hwrite]
  | nop | rd | clrerr => rfl

theorem Succeeds.lastErr_frame (h : Succeeds i s u v) (hi : i ≠ .clrerr) : u.lastErr = s.lastErr := by
  cases h with
  | clrerr => exact absurd rfl hi
  | cfgWr _ hwrite => rw [writeReg_frame hwrite]
  | nop | rd | init | reset | write | sum => simp

/-- No command touches the port's edges and delivered responses (log entries 1 and 4). -/
theorem Succeeds.port_frame (h : Succeeds i s u v) : u.edges = s.edges ∧ u.delivered = s.delivered := by
  cases h with
  | cfgWr _ hwrite => rw [writeReg_frame hwrite]; simp
  | nop | rd | init | reset | write | sum | clrerr => simp

/-- A successful command never takes the engine away (10_state.md R21). -/
theorem Succeeds.configured_mono (h : Succeeds i s u v) (heng : s.configured = true) : u.configured = true := by
  by_cases hi : i = .init
  · subst hi
    cases h with
    | init => rfl
  · obtain ⟨hconf, -⟩ := h.engine_frame hi
    exact hconf.trans heng

end

end Sys2Proof.Machine
end

section
/-! The rules of 10_state.md R13, R21 and R28 about every command: what it may write, DVALID, and CONFIGURED. -/

namespace Sys2Proof.Machine

/-- Settles O56: a failing command writes LASTERR alone, and a successful one keeps what its frame lemmas say. -/
theorem onlyListedCommandsWrite : Obligations.OnlyListedCommandsWrite := by
  intro i s t h
  rcases exec_cases h with ⟨rc, hfail, rfl⟩ | ⟨u, v, hok, rfl⟩
  · have herr : ∀ r, (failState rc s).outstanding = some r → r.code = 0x00 → i ≠ .clrerr →
        (failState rc s).lastErr = s.lastErr := by
      rintro r hr hok -
      obtain rfl := Option.some.inj hr
      exact absurd hok hfail.codeOf_ne_ok
    simpa using herr
  · exact ⟨hok.staging_frame, hok.engine_frame, hok.stream_frame, hok.digest_frame, hok.dvalid_frame,
      fun _ _ _ => hok.lastErr_frame, hok.port_frame⟩

/-- Settles O55: a failing command keeps DVALID, and a successful one sets it as its own effect says. -/
theorem dvalidRule : Obligations.DvalidRule := by
  intro i s
  rcases exec_outcome i s with ⟨rc, hfail, he⟩ | ⟨u, v, hok, he⟩
  · exact ⟨_, _, he, rfl, by rw [if_pos hfail.codeOf_ne_ok]; rfl⟩
  · refine ⟨_, _, he, rfl, ?_⟩
    rw [if_neg (not_not.mpr (show codeOf .ok = 0x00 from rfl))]
    cases hok with
    | @write n =>
      show (s.dvalid && n == 0) = if n = 0 then s.dvalid else false
      split
      · next hn => rw [beq_iff_eq.mpr hn, Bool.and_true]
      · next hn => rw [beq_false_of_ne hn, Bool.and_false]
    | cfgWr _ hwrite => rw [withResponse_dvalid, writeReg_frame hwrite]
    | nop | rd | init | reset | sum | clrerr => rfl

theorem exec_configured_mono {i : Instr} {s t : State} (h : exec i s = .next t) (heng : s.configured = true) :
    t.configured = true := by
  rcases exec_cases h with ⟨rc, -, rfl⟩ | ⟨u, v, hok, rfl⟩
  · exact heng
  · exact hok.configured_mono heng

theorem transact_configured_mono {cmd arg : Word} {s t : State} (h : transact cmd arg s = .next t)
    (heng : s.configured = true) : t.configured = true := by
  rcases transact_cases h with ⟨i, -, hexec⟩ | ⟨why, -, rfl⟩
  · exact exec_configured_mono hexec heng
  · exact heng

/-- Settles O53: of the four things an edge can do, only hardware reset clears CONFIGURED. -/
theorem configuredStaysSet : Obligations.ConfiguredStaysSet := by
  intro s t e rest hedges hrst heng h
  rw [step_of_cons hedges] at h
  rcases clockEdge_cases h with ⟨hlow, -⟩ | ⟨-, -, -, htr⟩ | ⟨-, -, -, -, rfl⟩ | ⟨-, rfl, -⟩
  · rw [hrst] at hlow; cases hlow
  · exact transact_configured_mono htr heng
  · rw [deliver_configured]; exact heng
  · exact heng

/-- All that the meaning of DVALID speaks of (10_state.md R28): the flag, DIGEST, and what SUM would read. -/
def digestView (s : State) : Bool × Vector Byte 32 × Bool × List Byte :=
  (s.dvalid, s.digest, s.configured, finalize s)

theorem digestOk_congr {s t : State} (h : digestView t = digestView s) (hs : DigestOk s) : DigestOk t := by
  simp only [digestView, Prod.mk.injEq] at h
  obtain ⟨hvalid, hdigest, hconf, hfin⟩ := h
  rw [DigestOk, hvalid, hdigest, hconf, hfin]
  exact hs

theorem digestOk_of_not_dvalid {s : State} (h : s.dvalid = false) : DigestOk s := by
  intro hv; rw [h] at hv; cases hv

theorem digestView_withResponse (rc : RC) (data : Word) (s : State) :
    digestView (withResponse rc data s) = digestView s := rfl

theorem digestView_failState (rc : RC) (s : State) : digestView (failState rc s) = digestView s := rfl

theorem digestView_deliver (s : State) : digestView (deliver s) = digestView s := by
  unfold deliver; split <;> rfl

theorem digestView_writeReg {s t : State} {a : Word} {r : Reg} (h : writeReg s a r = some t) :
    digestView t = digestView s := by
  rw [writeReg_frame h]; rfl

/-- DVALID is 1 after a success only where nothing of the stream moved, or where SUM has just written DIGEST. -/
theorem Succeeds.digestOk {i : Instr} {s u : State} {v : Word} (h : Succeeds i s u v) (hs : DigestOk s) :
    DigestOk u := by
  cases h with
  | nop | rd => exact hs
  | cfgWr _ hwrite => exact digestOk_congr (digestView_writeReg hwrite) hs
  | init | reset => exact digestOk_of_not_dvalid rfl
  | @write n =>
    by_cases hn : n = 0
    · subst hn
      exact digestOk_congr (by simp [digestView, writeBytes]) hs
    · exact digestOk_of_not_dvalid (by rw [beq_false_of_ne hn, Bool.and_false])
  | sum heng => exact fun _ => ⟨heng, congrArg (padTo 32) (finalize_congr rfl rfl rfl rfl rfl rfl)⟩
  | clrerr => exact digestOk_congr rfl hs

theorem transact_digestOk {cmd arg : Word} {s t : State} (h : transact cmd arg s = .next t) (hs : DigestOk s) :
    DigestOk t := by
  rcases transact_cases h with ⟨i, -, hexec⟩ | ⟨why, -, rfl⟩
  · rcases exec_cases hexec with ⟨rc, -, rfl⟩ | ⟨u, v, hok, rfl⟩
    · exact digestOk_congr (digestView_failState rc s) hs
    · exact digestOk_congr (digestView_withResponse .ok v u) (hok.digestOk hs)
  · exact digestOk_congr (digestView_failState _ s) hs

theorem clockEdge_digestOk {e : ClockEdge} {s t : State} (h : clockEdge e s = .next t) (hs : DigestOk s) :
    DigestOk t := by
  rcases clockEdge_cases h with ⟨-, rfl⟩ | ⟨-, -, -, htr⟩ | ⟨-, -, -, -, rfl⟩ | ⟨-, rfl, -⟩
  · exact digestOk_of_not_dvalid rfl
  · exact transact_digestOk htr hs
  · exact digestOk_congr (digestView_deliver s) hs
  · exact hs

/-- Settles O47: consuming the edge leaves what `DigestOk` reads, and what happens at the edge keeps it. -/
theorem stepKeepsDigestCurrent : Obligations.StepKeepsDigestCurrent := by
  intro s t hs h
  rcases step_cases h with ⟨-, rfl⟩ | ⟨e, rest, -, hedge⟩
  · exact hs
  · exact clockEdge_digestOk hedge (digestOk_congr rfl hs)

end Sys2Proof.Machine
end

section
/-! RD and CFG_WR register by register: the bits of STATUS and ENGCFG (10_state.md R30, R31), the values after hardware
reset (R13), the keys (R19, R22), and reading back what was staged (40_parameter_block.md R61). -/

namespace Sys2Proof.Machine

/-! The two accesses in terms of the register at the selector. -/

/-- RD of a mapped selector returns its register and writes nothing else (43_engine_surface.md R97). -/
theorem exec_rd_of_regOfSel {sel : Byte} {r : Reg} (h : regOfSel sel = some r) (s : State) :
    exec (.rd sel) s = .next (answered s (readReg s r)) := by
  simp only [exec, execRd, h]; rfl

theorem exec_rd_selOfReg (r : Reg) (s : State) :
    exec (.rd (selOfReg r)) s = .next (answered s (readReg s r)) :=
  exec_rd_of_regOfSel (regOfSel_selOfReg r) s

theorem exec_rd_of_unmapped {sel : Byte} (h : regOfSel sel = none) (s : State) :
    exec (.rd sel) s = .next (failed 0x02 s) := by
  simp only [exec, execRd, h]; rfl

/-- CFG_WR of a register that takes the value answers 0 (40_parameter_block.md R61). -/
theorem exec_cfgWr_of_writeReg {sel : Byte} {r : Reg} {a : Word} {s u : State} (hsel : regOfSel sel = some r)
    (hwrite : writeReg s a r = some u) : exec (.cfgWr sel a) s = .next (answered u 0) := by
  simp only [exec, execCfgWr, hsel, Option.bind_some, hwrite]; rfl

theorem exec_cfgWr_of_readOnly {sel : Byte} {r : Reg} (hsel : regOfSel sel = some r) (hr : isStaging r = false)
    (a : Word) (s : State) : exec (.cfgWr sel a) s = .next (failed 0x02 s) := by
  have hwrite : writeReg s a r = none := by rw [← Option.not_isSome_iff_eq_none, writeReg_isSome, hr]; decide
  simp only [exec, execCfgWr, hsel, Option.bind_some, hwrite]; rfl

theorem readReg_answered (s : State) (v : Word) (r : Reg) : readReg (answered s v) r = readReg s r := by
  cases r <;> rfl

/-! The bits of STATUS and ENGCFG. -/

theorem extractLsb'_eq_of_getLsbD {w n k : Nat} {x : BitVec w} {y : BitVec n}
    (h : ∀ i < n, x.getLsbD (k + i) = y.getLsbD i) : x.extractLsb' k n = y := by
  apply BitVec.eq_of_getLsbD_eq
  intro i hi
  rw [BitVec.getLsbD_extractLsb', h i hi]
  simp [hi]

theorem getLsbD_statusWord (s : State) (i : Nat) :
    (statusWord s).getLsbD i =
      if i < 1 then s.configured
      else if i < 2 then s.dvalid
      else if i < 8 then false
      else if i < 16 then s.lastErr.getLsbD (i - 8)
      else if i < 23 then s.bufLen.getLsbD (i - 16) else false := by
  simp only [statusWord, BitVec.getLsbD_append]
  repeat' split
  all_goals grind

theorem getLsbD_engcfgWord (s : State) (i : Nat) :
    (engcfgWord s).getLsbD i =
      if i < 8 then (s.dlen.setWidth 8).getLsbD i
      else if i < 16 then (s.klen.setWidth 8).getLsbD (i - 8)
      else if i < 17 then s.lastNode else false := by
  simp only [engcfgWord, BitVec.getLsbD_append]
  repeat' split
  all_goals grind

theorem statusWord_fields (s : State) :
    (statusWord s).extractLsb' 2 6 = 0 ∧ (statusWord s).extractLsb' 8 8 = s.lastErr
      ∧ (statusWord s).extractLsb' 16 7 = s.bufLen ∧ (statusWord s).extractLsb' 23 9 = 0 := by
  refine ⟨?_, ?_, ?_, ?_⟩ <;> refine extractLsb'_eq_of_getLsbD fun i hi => ?_ <;> grind [getLsbD_statusWord]

theorem engcfgWord_fields (s : State) :
    (engcfgWord s).extractLsb' 0 8 = s.dlen.setWidth 8 ∧ (engcfgWord s).extractLsb' 8 8 = s.klen.setWidth 8
      ∧ (engcfgWord s).extractLsb' 17 15 = 0 := by
  refine ⟨?_, ?_, ?_⟩ <;> refine extractLsb'_eq_of_getLsbD fun i hi => ?_ <;> grind [getLsbD_engcfgWord]

/-- Settles O17: RD STATUS is RD of a register, whose bits are its fields; a CFG_WR to it is one to a register that is
not a staging register. -/
theorem statusRegisterBits : Obligations.StatusRegisterBits := by
  refine ⟨fun s => ?_, exec_rd_selOfReg .status State.reset, fun s arg => ?_⟩
  · obtain ⟨hlow, herr, hlen, hhigh⟩ := statusWord_fields s
    exact ⟨statusWord s, exec_rd_selOfReg .status s, getLsbD_statusWord s 0, getLsbD_statusWord s 1, hlow, herr, hlen,
      hhigh⟩
  · exact exec_cfgWr_of_readOnly (regOfSel_selOfReg .status) rfl arg s

/-- Settles O18: RD ENGCFG is RD of a register, whose bits are its fields; DLEN and KLEN fit their bytes. -/
theorem engcfgRegisterBits : Obligations.EngcfgRegisterBits := by
  refine ⟨fun s => ?_, exec_rd_selOfReg .engcfg State.reset⟩
  obtain ⟨hdlen, hklen, hhigh⟩ := engcfgWord_fields s
  refine ⟨engcfgWord s, exec_rd_selOfReg .engcfg s, ?_, ?_, getLsbD_engcfgWord s 16, hhigh⟩
  · rw [hdlen, BitVec.toNat_setWidth_of_le (by decide)]
  · rw [hklen, BitVec.toNat_setWidth_of_le (by decide)]

/-! The values after hardware reset, and the keys. -/

theorem readReg_reset (r : Reg) : readReg State.reset r = if r = .info then 0x00202040 else 0x00000000 := by
  cases r with
  | info | cfg4 | status | engcfg => decide
  | cfg i | key i | salt i | pers i | p i | h i | t i | buf i | digest i => revert i; decide

/-- Settles O10, with the value of each register in the reset state. -/
theorem resetRegistersReadZero : Obligations.ResetRegistersReadZero := by
  intro r
  rw [exec_rd_selOfReg, readReg_reset]

theorem readReg_keys (s : State) (k l : Vector Byte 32) (r : Reg) :
    readReg { s with key := k, keyl := l } r = readReg s r := by
  cases r <;> rfl

/-- Settles O19: no register's reading depends on KEY or KEYL, and a failing RD does not either. -/
theorem rdHidesKeyRegisters : Obligations.RdHidesKeyRegisters := by
  intro s sel k l
  cases hsel : regOfSel sel with
  | none => exact ⟨_, exec_rd_of_unmapped hsel s, exec_rd_of_unmapped hsel _⟩
  | some r =>
    refine ⟨_, exec_rd_of_regOfSel hsel s, ?_⟩
    rw [exec_rd_of_regOfSel hsel, readReg_keys]; rfl

/-! Reading back a staging register. -/

/-- What RD returns of a register after a CFG_WR of `a` to it: KEY is write-only and CFG4 keeps two bits (10_state.md
R18, R19). -/
def readBack (a : Word) : Reg → Word
  | .cfg4 => a &&& 3
  | .key _ => 0
  | _ => a

theorem setWidth_extractLsb'_two (a : Word) : (a.extractLsb' 0 2).setWidth 32 = a &&& 3 := by
  apply BitVec.eq_of_toNat_eq
  rw [BitVec.toNat_and, show (3 : Word).toNat = 2 ^ 2 - 1 from rfl, Nat.and_two_pow_sub_one_eq_mod,
    BitVec.toNat_setWidth_of_le (by decide), BitVec.extractLsb'_toNat, Nat.shiftRight_zero]

theorem readReg_writeReg_same {s u : State} {a : Word} {r : Reg} (h : writeReg s a r = some u) :
    readReg u r = readBack a r := by
  cases r with
  | cfg i => obtain rfl := Option.some.inj h; exact Vector.getElem_set_self _
  | cfg4 => obtain rfl := Option.some.inj h; exact setWidth_extractLsb'_two a
  | key i => rfl
  | salt i | pers i => obtain rfl := Option.some.inj h; exact le32_setLe32 _ _ _ (by omega)
  | status | engcfg | info | p | h | t | buf | digest => cases h

theorem readReg_writeReg_other {s u : State} {a : Word} {r q : Reg} (h : writeReg s a r = some u) (hne : q ≠ r) :
    readReg u q = readReg s q := by
  cases r with
  | cfg i =>
    obtain rfl := Option.some.inj h
    cases q with
    | cfg j => exact Vector.getElem_set_ne i.isLt j.isLt fun hij => hne (congrArg Reg.cfg (Fin.ext hij.symm))
    | _ => simp only [readReg, statusWord, engcfgWord]
  | cfg4 =>
    obtain rfl := Option.some.inj h
    cases q with
    | cfg4 => exact absurd rfl hne
    | _ => simp only [readReg, statusWord, engcfgWord]
  | key i =>
    obtain rfl := Option.some.inj h
    cases q <;> simp only [readReg, statusWord, engcfgWord]
  | salt i =>
    obtain rfl := Option.some.inj h
    cases q with
    | salt j => exact le32_setLe32_other _ _ _ _ fun hij => hne (congrArg Reg.salt (Fin.ext hij.symm))
    | _ => simp only [readReg, statusWord, engcfgWord]
  | pers i =>
    obtain rfl := Option.some.inj h
    cases q with
    | pers j => exact le32_setLe32_other _ _ _ _ fun hij => hne (congrArg Reg.pers (Fin.ext hij.symm))
    | _ => simp only [readReg, statusWord, engcfgWord]
  | status | engcfg | info | p | h | t | buf | digest => cases h

/-- The value read back in terms of the selector: CFG4 is 0x04, KEY0..KEY7 are 0x08..0x0F (10_state.md R35). -/
theorem readBack_eq (a : Word) {r : Reg} (hr : isStaging r = true) :
    readBack a r =
      if selOfReg r = 0x04 then a &&& 3
      else if 0x08 ≤ (selOfReg r).toNat ∧ (selOfReg r).toNat ≤ 0x0F then 0 else a := by
  cases r with
  | cfg4 => rfl
  | cfg i | key i | salt i | pers i => fin_cases i <;> rfl
  | status | engcfg | info | p | h | t | buf | digest => cases hr

theorem exists_regOfSel_of_readable {sel : Byte} (h : selReadable sel = true) : ∃ r, regOfSel sel = some r :=
  Option.isSome_iff_exists.mp ((regOfSel_isSome sel).trans h)

theorem exists_staging_of_writable {sel : Byte} (h : selWritable sel = true) :
    ∃ r, regOfSel sel = some r ∧ isStaging r = true := by
  rw [selWritable_eq, Option.any_eq_true] at h
  exact h

/-- Settles O21: the selector names a staging register r, which takes the value; reading r gives it back, and any other
selector names a register other than r, whose reading is as before. -/
theorem cfgWrReadsBack : Obligations.CfgWrReadsBack := by
  intro s sel a hsel
  obtain ⟨r, hr, hstaging⟩ := exists_staging_of_writable hsel
  obtain ⟨u, hu⟩ := Option.isSome_iff_exists.mp ((writeReg_isSome s a r).trans hstaging)
  refine ⟨_, exec_cfgWr_of_writeReg hr hu, ?_, fun other hother hne => ?_⟩
  · rw [exec_rd_of_regOfSel hr, readReg_answered, readReg_writeReg_same hu, readBack_eq a hstaging,
      selOfReg_of_regOfSel hr]
  · obtain ⟨q, hq⟩ := exists_regOfSel_of_readable hother
    have hqr : q ≠ r := by
      rintro rfl
      exact hne ((selOfReg_of_regOfSel hq).symm.trans (selOfReg_of_regOfSel hr))
    refine ⟨readReg s q, exec_rd_of_regOfSel hq s, ?_⟩
    rw [exec_rd_of_regOfSel hq, readReg_answered, readReg_writeReg_other hu hqr]

end Sys2Proof.Machine
end

section
/-! The decoder and the encoder (30_encoding.md R51 to R59): a word is its three fields, a command's word decodes to the
command whatever ARG is where the command ignores it, and no other word decodes to it. -/

namespace Sys2Proof

/-! A word is its fields. -/

theorem word_eq_of_fields {a b : Word} (hrsvd : cmdRsvd a = cmdRsvd b) (hsel : cmdSel a = cmdSel b)
    (hopc : cmdOpc a = cmdOpc b) : a = b := by
  have hr := congrArg BitVec.toNat hrsvd
  have hs := congrArg BitVec.toNat hsel
  have ho := congrArg BitVec.toNat hopc
  rw [toNat_cmdRsvd, toNat_cmdRsvd] at hr
  rw [toNat_cmdSel, toNat_cmdSel] at hs
  rw [toNat_cmdOpc, toNat_cmdOpc] at ho
  apply BitVec.eq_of_toNat_eq
  omega

theorem eq_cmdWord_iff (cmd : Word) (i : Instr) :
    cmd = i.cmdWord ↔ cmdRsvd cmd = 0 ∧ cmdSel cmd = i.selField ∧ cmdOpc cmd = i.opc := by
  constructor
  · rintro rfl
    exact ⟨cmdRsvd_cmdWord i, cmdSel_cmdWord i, cmdOpc_cmdWord i⟩
  · rintro ⟨hrsvd, hsel, hopc⟩
    apply word_eq_of_fields
    · rw [hrsvd, cmdRsvd_cmdWord]
    · rw [hsel, cmdSel_cmdWord]
    · rw [hopc, cmdOpc_cmdWord]

/-! The dispatch on OPC, and the three checks. -/

/-- The command of the same opcode with the given selector or byte count and ARG; what the command ignores is dropped
(R52). -/
def Instr.withFields (i : Instr) (sel : Byte) (arg : Word) : Instr :=
  match i with
  | .cfgWr _ _ => .cfgWr sel arg
  | .rd _ => .rd sel
  | .write _ _ => .write sel arg
  | .nop => .nop
  | .init => .init
  | .reset => .reset
  | .sum => .sum
  | .clrerr => .clrerr

@[simp] theorem Instr.withFields_self (i : Instr) : i.withFields i.selField i.argField = i := by cases i <;> rfl

theorem instrOfOpc_opc (i : Instr) (sel : Byte) (arg : Word) :
    instrOfOpc i.opc sel arg = some (i.withFields sel arg) := by
  cases i <;> rfl

theorem Instr.selField_eq_zero (i : Instr) (h : opcTakesSel i.opc = false) : i.selField = 0 := by
  cases i with
  | cfgWr | rd | write => cases h
  | nop | init | reset | sum | clrerr => rfl

theorem opc_of_instrOfOpc {opc sel : Byte} {arg : Word} {i : Instr} (h : instrOfOpc opc sel arg = some i) :
    opc = i.opc := by
  unfold instrOfOpc at h
  split at h
  case h_9 => cases h
  all_goals
    obtain rfl := Option.some.inj h
    exact BitVec.eq_of_toNat_eq ‹_›

theorem selField_of_instrOfOpc {i : Instr} {sel : Byte} {arg : Word} (h : instrOfOpc i.opc sel arg = some i)
    (htakes : opcTakesSel i.opc = true) : sel = i.selField := by
  cases i with
  | cfgWr | rd | write => cases h; rfl
  | nop | init | reset | sum | clrerr => cases htakes

theorem decode_of_reserved {cmd : Word} (h : cmdRsvd cmd ≠ 0) (arg : Word) :
    decode cmd arg = .illegal .reservedBits := if_pos h

theorem decode_of_unknown {cmd arg : Word} (hrsvd : cmdRsvd cmd = 0)
    (hopc : instrOfOpc (cmdOpc cmd) (cmdSel cmd) arg = none) : decode cmd arg = .illegal .unknownOpcode := by
  unfold decode; rw [if_neg (not_not.mpr hrsvd), hopc]

theorem decode_of_known {cmd arg : Word} {i : Instr} (hrsvd : cmdRsvd cmd = 0)
    (hopc : instrOfOpc (cmdOpc cmd) (cmdSel cmd) arg = some i) :
    decode cmd arg =
      if opcTakesSel (cmdOpc cmd) = false ∧ cmdSel cmd ≠ 0 then .illegal .selNotZero else .instr i := by
  unfold decode; rw [if_neg (not_not.mpr hrsvd), hopc]; simp

/-- A word that passes the checks is dispatched to the command of its fields (R55). -/
theorem decode_of_fields {cmd : Word} (i : Instr) (arg : Word) (hrsvd : cmdRsvd cmd = 0) (hopc : cmdOpc cmd = i.opc)
    (hsel : opcTakesSel i.opc = false → cmdSel cmd = 0) :
    decode cmd arg = .instr (i.withFields (cmdSel cmd) arg) := by
  have hdispatch : instrOfOpc (cmdOpc cmd) (cmdSel cmd) arg = some (i.withFields (cmdSel cmd) arg) := by
    rw [hopc, instrOfOpc_opc]
  rw [decode_of_known hrsvd hdispatch, hopc, if_neg]
  exact fun ⟨hno, hne⟩ => hne (hsel hno)

/-- A command's word decodes to the command, with the ARG that comes with the word. -/
theorem decode_cmdWord (i : Instr) (arg : Word) : decode i.cmdWord arg = .instr (i.withFields i.selField arg) := by
  have h := decode_of_fields i arg (cmdRsvd_cmdWord i) (cmdOpc_cmdWord i) fun hno => by
    rw [cmdSel_cmdWord, i.selField_eq_zero hno]
  rwa [cmdSel_cmdWord] at h

/-- No other word decodes to a command than the command's own. -/
theorem eq_cmdWord_of_decode {cmd arg : Word} {i : Instr} (h : decode cmd arg = .instr i) : cmd = i.cmdWord := by
  by_cases hrsvd : cmdRsvd cmd = 0
  · cases hopc : instrOfOpc (cmdOpc cmd) (cmdSel cmd) arg with
    | none => rw [decode_of_unknown hrsvd hopc] at h; cases h
    | some j =>
      rw [decode_of_known hrsvd hopc] at h
      split at h
      · cases h
      · next hsel =>
        obtain rfl := Decoded.instr.inj h
        have hj := opc_of_instrOfOpc hopc
        rw [hj] at hopc hsel
        refine (eq_cmdWord_iff cmd j).mpr ⟨hrsvd, ?_, hj⟩
        cases htakes : opcTakesSel j.opc with
        | true => exact selField_of_instrOfOpc hopc htakes
        | false => rw [j.selField_eq_zero htakes]; exact not_not.mp fun hne => hsel ⟨htakes, hne⟩
  · rw [decode_of_reserved hrsvd] at h; cases h

theorem decode_encode (i : Instr) : decode (encode i).1 (encode i).2 = .instr i := by
  rw [encode, decode_cmdWord, Instr.withFields_self]

/-! The numbering of the opcode table, with ARG in bits 63..32 (log entry 5). -/

theorem tableCmd_pair (cmd arg : Word) : tableCmd 64 (cmd.toNat + 2 ^ 32 * arg.toNat) = cmd := by
  have hc := cmd.isLt
  have ha := arg.isLt
  apply BitVec.eq_of_toNat_eq
  rw [tableCmd, BitVec.toNat_ofNat]
  omega

theorem tableArg_pair (cmd arg : Word) : tableArg 64 (cmd.toNat + 2 ^ 32 * arg.toNat) = arg := by
  have hc := cmd.isLt
  have ha := arg.isLt
  apply BitVec.eq_of_toNat_eq
  rw [tableArg, BitVec.toNat_ofNat]
  omega

theorem decodeTableWord_pair (cmd arg : Word) {i : Instr} (h : decode cmd arg = .instr i) :
    decodeTableWord 64 (cmd.toNat + 2 ^ 32 * arg.toNat) = some i := by
  rw [decodeTableWord, tableCmd_pair, tableArg_pair, h]

/-- Settles O4: a command's word decodes to it, and the table's numbering gives that word and ARG back. -/
theorem decodeOfEncode : Obligations.DecodeOfEncode :=
  fun i => ⟨decode_encode i, decodeTableWord_pair _ _ (decode_encode i)⟩

/-- Settles O5: a word that decodes to a command is its own word, which decodes to it with the encoder's ARG. -/
theorem oneWordPerCommand : Obligations.OneWordPerCommand := by
  intro cmd arg i h
  obtain rfl := eq_cmdWord_of_decode h
  exact ⟨rfl, decode_encode i⟩

/-- Settles O1: each of the words written out is the word of its command. -/
theorem sampleWordsDecode : Obligations.SampleWordsDecode :=
  fun arg => ⟨decode_cmdWord .nop arg, decode_cmdWord (.cfgWr 0x10 0) arg, decode_cmdWord (.rd 0x22) arg,
    decode_cmdWord .init arg, decode_cmdWord .reset arg, decode_cmdWord (.write 3 0) arg, decode_cmdWord .sum arg,
    decode_cmdWord .clrerr arg⟩

end Sys2Proof
end

section
/-! The opcode map, the decoder's checks in their order, and the bits of ARG that nothing reads (30_encoding.md R52, R54,
R55). -/

namespace Sys2Proof

open Machine

/-! The rows of the opcode map. -/

/-- A row is selected field by field. -/
theorem rowSelected_iff (cmd : Word) (r : OpcodeRow) :
    rowSelected cmd r = true ↔
      cmdRsvd cmd &&& cmdRsvd r.mask = cmdRsvd r.matchBits ∧ cmdSel cmd &&& cmdSel r.mask = cmdSel r.matchBits
        ∧ cmdOpc cmd &&& cmdOpc r.mask = cmdOpc r.matchBits := by
  rw [rowSelected, beq_iff_eq]
  simp only [cmdRsvd, cmdSel, cmdOpc, ← BitVec.extractLsb'_and]
  constructor
  · intro h
    simp only [h, and_self]
  · rintro ⟨hrsvd, hsel, hopc⟩
    exact word_eq_of_fields hrsvd hsel hopc

/-- The fields a command's row fixes: all but the selector of a command that takes one (R54). -/
theorem Instr.row_fields (i : Instr) :
    cmdRsvd i.row.mask = BitVec.allOnes 16 ∧ cmdRsvd i.row.matchBits = 0
      ∧ cmdSel i.row.mask = (bif opcTakesSel i.opc then 0 else BitVec.allOnes 8) ∧ cmdSel i.row.matchBits = 0
      ∧ cmdOpc i.row.mask = BitVec.allOnes 8 ∧ cmdOpc i.row.matchBits = i.opc := by
  cases i <;> simp only [Instr.row, Instr.opc] <;> decide

theorem rowSelected_row_iff (cmd : Word) (i : Instr) :
    rowSelected cmd i.row = true ↔
      cmdRsvd cmd = 0 ∧ (opcTakesSel i.opc = false → cmdSel cmd = 0) ∧ cmdOpc cmd = i.opc := by
  obtain ⟨hrm, hrb, hsm, hsb, hom, hob⟩ := i.row_fields
  rw [rowSelected_iff, hrm, hrb, hsm, hsb, hom, hob, BitVec.and_allOnes, BitVec.and_allOnes]
  cases opcTakesSel i.opc with
  | true => simp
  | false => rw [cond_false, BitVec.and_allOnes]; simp

theorem Instr.row_withFields (i : Instr) (sel : Byte) (arg : Word) : (i.withFields sel arg).row = i.row := by
  cases i <;> rfl

theorem rowSelected_cmdWord (i : Instr) : rowSelected i.cmdWord i.row = true := by
  rw [rowSelected_row_iff, cmdRsvd_cmdWord, cmdSel_cmdWord, cmdOpc_cmdWord]
  exact ⟨rfl, i.selField_eq_zero, rfl⟩

/-- The rows of the map are the rows of the commands. -/
theorem mem_opcodeMap_iff (r : OpcodeRow) : r ∈ opcodeMap ↔ ∃ i : Instr, i.row = r := by
  constructor
  · intro h
    simp only [opcodeMap, List.mem_cons, List.not_mem_nil, or_false] at h
    rcases h with rfl | rfl | rfl | rfl | rfl | rfl | rfl | rfl <;> exact ⟨_, rfl⟩
  · rintro ⟨i, rfl⟩
    cases i <;> simp [opcodeMap, Instr.row]

/-- A row of the map is selected exactly by the words of its command. -/
theorem rowSelected_iff_decode (cmd arg : Word) {r : OpcodeRow} (hr : r ∈ opcodeMap) :
    rowSelected cmd r = true ↔ ∃ i, decode cmd arg = .instr i ∧ i.row = r := by
  constructor
  · obtain ⟨i, rfl⟩ := (mem_opcodeMap_iff r).mp hr
    intro h
    obtain ⟨hrsvd, hsel, hopc⟩ := (rowSelected_row_iff cmd i).mp h
    exact ⟨_, decode_of_fields i arg hrsvd hopc hsel, i.row_withFields _ _⟩
  · rintro ⟨i, hdec, rfl⟩
    rw [eq_cmdWord_of_decode hdec]
    exact rowSelected_cmdWord i

theorem filter_opcodeMap_eq_row (i : Instr) : opcodeMap.filter (fun r => i.row = r) = [i.row] := by
  cases i <;> rfl

theorem selectedRows_of_instr {cmd arg : Word} {i : Instr} (h : decode cmd arg = .instr i) :
    opcodeMap.filter (rowSelected cmd) = [i.row] := by
  rw [← filter_opcodeMap_eq_row i]
  refine List.filter_congr fun r hr => ?_
  rw [Bool.eq_iff_iff, rowSelected_iff_decode cmd arg hr, decide_eq_true_iff]
  constructor
  · rintro ⟨j, hj, rfl⟩
    rw [Decoded.instr.inj (h.symm.trans hj)]
  · exact fun hrow => ⟨i, h, hrow⟩

theorem selectedRows_of_illegal {cmd arg : Word} {why : Reject} (h : decode cmd arg = .illegal why) :
    opcodeMap.filter (rowSelected cmd) = [] := by
  rw [List.filter_eq_nil_iff]
  intro r hr hsel
  obtain ⟨i, hi, -⟩ := (rowSelected_iff_decode cmd arg hr).mp hsel
  rw [h] at hi
  cases hi

theorem transact_of_illegal {cmd arg : Word} {why : Reject} (h : decode cmd arg = .illegal why) (s : State) :
    transact cmd arg s = .next (failed 0x01 s) := by
  unfold transact; rw [h]; rfl

/-- Settles O2: whether the word decodes says which rows it selects. -/
theorem decoderFollowsOpcodeMap : Obligations.DecoderFollowsOpcodeMap := by
  refine ⟨rfl, fun cmd arg => ?_⟩
  cases h : decode cmd arg with
  | instr i => exact .inl ⟨i, rfl, selectedRows_of_instr h⟩
  | illegal why => exact .inr ⟨selectedRows_of_illegal h, transact_of_illegal h⟩

/-! The checks in their order. -/

theorem cmdSel_eq_ofNat (cmd : Word) : cmdSel cmd = BitVec.ofNat 8 (cmd.toNat / 2 ^ 8 % 2 ^ 8) := by
  rw [← toNat_cmdSel, BitVec.ofNat_toNat, BitVec.setWidth_eq]

/-- The dispatch of R55 in terms of the fields as numbers. -/
theorem decode_of_toNat {cmd : Word} (i : Instr) (arg : Word) (hrsvd : cmd.toNat / 2 ^ 16 = 0)
    (hopc : cmd.toNat % 2 ^ 8 = i.opc.toNat) (hsel : opcTakesSel i.opc = false → cmd.toNat / 2 ^ 8 % 2 ^ 8 = 0) :
    decode cmd arg = .instr (i.withFields (BitVec.ofNat 8 (cmd.toNat / 2 ^ 8 % 2 ^ 8)) arg) := by
  rw [← cmdSel_eq_ofNat]
  refine decode_of_fields i arg ((cmdRsvd_eq_zero_iff cmd).mpr hrsvd) ?_ fun hno => ?_
  · exact BitVec.eq_of_toNat_eq ((toNat_cmdOpc cmd).trans hopc)
  · rw [cmdSel_eq_ofNat, hsel hno]; rfl

theorem instrOfOpc_eq_none {opc : Byte} (sel : Byte) (arg : Word) (h : 8 ≤ opc.toNat) :
    instrOfOpc opc sel arg = none := by
  unfold instrOfOpc
  split
  case h_9 => rfl
  all_goals omega

/-- The dispatch names a command for every opcode below 8 (R54). -/
theorem instrOfOpc_isSome {opc : Byte} (sel : Byte) (arg : Word) (h : opc.toNat < 8) :
    ∃ i, instrOfOpc opc sel arg = some i := by
  unfold instrOfOpc
  generalize opc.toNat = k at h ⊢
  interval_cases k <;> exact ⟨_, rfl⟩

theorem opcTakesSel_eq_false {opc : Byte} (h1 : opc.toNat ≠ 1) (h2 : opc.toNat ≠ 2) (h5 : opc.toNat ≠ 5) :
    opcTakesSel opc = false := by
  simp only [opcTakesSel, Bool.or_eq_false_iff, beq_eq_false_iff_ne]
  exact ⟨⟨fun h => h1 (by rw [h]; rfl), fun h => h2 (by rw [h]; rfl)⟩, fun h => h5 (by rw [h]; rfl)⟩

theorem decode_of_selNotZero {cmd : Word} (arg : Word) (hrsvd : cmdRsvd cmd = 0) (hopc : (cmdOpc cmd).toNat < 8)
    (htakes : opcTakesSel (cmdOpc cmd) = false) (hsel : cmdSel cmd ≠ 0) : decode cmd arg = .illegal .selNotZero := by
  obtain ⟨i, hi⟩ := instrOfOpc_isSome (cmdSel cmd) arg hopc
  rw [decode_of_known hrsvd hi, if_pos ⟨htakes, hsel⟩]

/-- Settles O3: the three failing checks, the dispatch of each opcode, and the two answers. -/
theorem decodeChecksInOrder : Obligations.DecodeChecksInOrder := by
  intro cmd arg
  refine ⟨fun hr => ?_, fun hr ho => ?_, fun hr ho h1 h2 h5 hs => ?_,
    fun hr ho hs => decode_of_toNat .nop arg hr ho fun _ => hs,
    fun hr ho => decode_of_toNat (.cfgWr 0 0) arg hr ho nofun,
    fun hr ho => decode_of_toNat (.rd 0) arg hr ho nofun,
    fun hr ho hs => decode_of_toNat .init arg hr ho fun _ => hs,
    fun hr ho hs => decode_of_toNat .reset arg hr ho fun _ => hs,
    fun hr ho => decode_of_toNat (.write 0 0) arg hr ho nofun,
    fun hr ho hs => decode_of_toNat .sum arg hr ho fun _ => hs,
    fun hr ho hs => decode_of_toNat .clrerr arg hr ho fun _ => hs,
    fun _ s h => transact_of_illegal h s,
    fun _ s h => transact_of_instr h s⟩
  · exact decode_of_reserved (mt (cmdRsvd_eq_zero_iff cmd).mp hr) arg
  · rw [← toNat_cmdOpc] at ho
    exact decode_of_unknown ((cmdRsvd_eq_zero_iff cmd).mpr hr) (instrOfOpc_eq_none _ arg ho)
  · rw [← toNat_cmdOpc] at ho h1 h2 h5
    rw [← toNat_cmdSel] at hs
    refine decode_of_selNotZero arg ((cmdRsvd_eq_zero_iff cmd).mpr hr) ho (opcTakesSel_eq_false h1 h2 h5) ?_
    exact fun h => hs (by rw [h]; rfl)

/-! The bits of ARG that nothing reads (R52). -/

theorem instrOfOpc_congr_arg {opc : Byte} (sel : Byte) (a b : Word) (h1 : opc.toNat ≠ 1) (h5 : opc.toNat ≠ 5) :
    instrOfOpc opc sel a = instrOfOpc opc sel b := by
  unfold instrOfOpc
  split
  case h_2 h => exact absurd h h1
  case h_6 h => exact absurd h h5
  all_goals rfl

theorem decode_congr_arg {cmd : Word} (a b : Word) (h1 : (cmdOpc cmd).toNat ≠ 1) (h5 : (cmdOpc cmd).toNat ≠ 5) :
    decode cmd a = decode cmd b := by
  rw [decode, decode, instrOfOpc_congr_arg _ a b h1 h5]

theorem writeBytes_congr {n : Nat} {a b : Word} (h : ∀ k, k < n → wordByte a k = wordByte b k) :
    writeBytes n a = writeBytes n b :=
  List.map_congr_left fun k hk => h k (List.mem_range.mp hk)

/-- WRITE reads its argument through the message bytes alone. -/
theorem exec_write_congr {n : Byte} {a b : Word} (h : writeBytes n.toNat a = writeBytes n.toNat b) (s : State) :
    exec (.write n a) s = exec (.write n b) s := by
  simp only [exec, execWrite, h]

/-- Settles O30: WRITE takes its low N bytes, and only two opcodes put ARG into their command. -/
theorem unusedArgBitsIgnored : Obligations.UnusedArgBitsIgnored := by
  refine ⟨fun s n a b h => exec_write_congr (writeBytes_congr h) s, fun cmd a b h1 h5 => ?_⟩
  rw [← toNat_cmdOpc] at h1 h5
  exact decode_congr_arg a b h1 h5

end Sys2Proof
end

section
/-! The handshake of the command port (30_encoding.md R50): the edges that accept no command, and how many responses an
edge leaves owed. -/

namespace Sys2Proof.Machine

/-- Settles O7: the edge accepts the word, and a word that is no command is answered ILLEGAL_CMD. -/
theorem stepAnswersIllegalWord : Obligations.StepAnswersIllegalWord := by
  intro s e rest why hedges hrst hvalid hready hdec
  rw [step_of_accept hedges hrst hvalid hready, transact_of_illegal hdec]

/-! The edges that accept no command. -/

theorem clockEdge_of_idle {e : ClockEdge} {s : State} (hrst : e.rstN = true) (hready : s.outstanding = none)
    (hvalid : e.cmdValid = false) : clockEdge e s = .next s := by
  simp [clockEdge, rspValid, hrst, hready, hvalid]

theorem cmdReady_of_outstanding (e : ClockEdge) {s : State} {r : Response} (hr : s.outstanding = some r) :
    cmdReady e s = false := by
  simp [cmdReady, hr]

theorem clockEdge_of_take {e : ClockEdge} {s : State} {r : Response} (hrst : e.rstN = true)
    (hr : s.outstanding = some r) (htake : e.rspReady = true) (hbusy : e.busy = false) :
    clockEdge e s = .next { s with outstanding := none, delivered := s.delivered ++ [r] } := by
  simp [clockEdge, rspValid, cmdReady_of_outstanding e hr, deliver, hrst, hr, htake, hbusy]

theorem clockEdge_of_wait {e : ClockEdge} {s : State} {r : Response} (hrst : e.rstN = true)
    (hr : s.outstanding = some r) (hwait : e.rspReady = false ∨ e.busy = true) : clockEdge e s = .next s := by
  rcases hwait with h | h <;> simp [clockEdge, rspValid, cmdReady_of_outstanding e hr, hrst, h]

/-- Settles O8: the edge is idle, takes the response, or waits. -/
theorem handshakeHoldsOneCommand : Obligations.HandshakeHoldsOneCommand := by
  intro s e rest hedges hrst
  rw [step_of_cons hedges]
  exact ⟨fun hnone hvalid => clockEdge_of_idle hrst hnone hvalid, fun r hr => ⟨cmdReady_of_outstanding e hr,
    fun htake hbusy => clockEdge_of_take hrst hr htake hbusy, fun hwait => clockEdge_of_wait hrst hr hwait⟩⟩

/-! One response for each accepted command. -/

theorem exec_response {i : Instr} {s t : State} (h : exec i s = .next t) :
    (∃ r, t.outstanding = some r) ∧ t.delivered = s.delivered := by
  rcases exec_cases h with ⟨rc, -, rfl⟩ | ⟨u, v, hok, rfl⟩
  · exact ⟨⟨_, rfl⟩, rfl⟩
  · exact ⟨⟨_, rfl⟩, hok.port_frame.2⟩

/-- A transaction leaves its response outstanding and delivers none. -/
theorem transact_response {cmd arg : Word} {s t : State} (h : transact cmd arg s = .next t) :
    (∃ r, t.outstanding = some r) ∧ t.delivered = s.delivered := by
  rcases transact_cases h with ⟨i, -, hexec⟩ | ⟨why, -, rfl⟩
  · exact exec_response hexec
  · exact ⟨⟨_, rfl⟩, rfl⟩

/-- The responses delivered and owed, in order. -/
def responses (s : State) : List Response := s.delivered ++ s.outstanding.toList

theorem responsesOwed_eq_length (s : State) : responsesOwed s = (responses s).length := by
  rw [responses, List.length_append, responsesOwed]

theorem responses_deliver (s : State) : responses (deliver s) = responses s := by
  simp [responses]

theorem accepts_iff {e : ClockEdge} {s : State} (hrst : e.rstN = true) :
    (e.cmdValid && cmdReady e s) = true ↔ e.cmdValid = true ∧ s.outstanding = none := by
  simp [cmdReady, hrst]

/-- An accepting edge adds its command's response and delivers none. -/
theorem clockEdge_accept_responses {e : ClockEdge} {s t : State} (hrst : e.rstN = true)
    (hacc : (e.cmdValid && cmdReady e s) = true) (h : clockEdge e s = .next t) :
    responsesOwed t = responsesOwed s + 1 ∧ t.delivered = s.delivered := by
  obtain ⟨hvalid, hready⟩ := (accepts_iff hrst).mp hacc
  rw [clockEdge_of_accept hrst hvalid hready] at h
  obtain ⟨⟨r, hr⟩, hdel⟩ := transact_response h
  refine ⟨?_, hdel⟩
  simp [responsesOwed, hr, hready, hdel]

/-- Any other edge out of reset keeps the responses and their order. -/
theorem clockEdge_keeps_responses {e : ClockEdge} {s t : State} (hrst : e.rstN = true)
    (hno : (e.cmdValid && cmdReady e s) = false) (h : clockEdge e s = .next t) : responses t = responses s := by
  rcases clockEdge_cases h with ⟨hlow, -⟩ | ⟨-, hvalid, hready, -⟩ | ⟨-, -, -, -, rfl⟩ | ⟨-, rfl, -⟩
  · rw [hrst] at hlow; cases hlow
  · rw [(accepts_iff hrst).mpr ⟨hvalid, hready⟩] at hno; cases hno
  · exact responses_deliver s
  · rfl

/-- Settles O12: an accepting edge adds its command's response, any other keeps the list. -/
theorem oneResponsePerCommand : Obligations.OneResponsePerCommand := by
  intro s t e rest hedges hrst h
  rw [step_of_cons hedges] at h
  simp only [← Bool.and_eq_true]
  cases hacc : (e.cmdValid && cmdReady e s) with
  | true =>
    obtain ⟨howed, hdel⟩ := clockEdge_accept_responses (s := { s with edges := rest }) hrst hacc h
    exact ⟨howed, nofun, fun _ => hdel⟩
  | false =>
    have hkeep : responses t = responses s :=
      clockEdge_keeps_responses (s := { s with edges := rest }) hrst hacc h
    exact ⟨by rw [responsesOwed_eq_length, hkeep, ← responsesOwed_eq_length]; rfl, fun _ => hkeep, nofun⟩

end Sys2Proof.Machine
end

section
/-! The pseudo-instructions (30_encoding.md R60): WRITEB as a list of WRITEs, which are told apart by the bytes they feed
alone (42_streaming.md R92); SETKEY, SETSALT and SETPERS word by word; RDDIGEST. -/

namespace Sys2Proof.Machine

/-! A list of WRITEs feeds its bytes. -/

/-- The state without the response of the last command. -/
def unanswered (s : State) : State := { s with outstanding := none }

/-- The state that has taken the bytes, DVALID falling with the first of them, and has no response outstanding. -/
def fed (l : List Byte) (s : State) : State :=
  { absorbAll l s with dvalid := s.dvalid && l.isEmpty, outstanding := none }

/-- Absorbing does not look at DVALID and the response. -/
theorem absorb_set_flags (s : State) (d : Bool) (o : Option Response) (b : Byte) :
    absorb { s with dvalid := d, outstanding := o } b = { absorb s b with dvalid := d, outstanding := o } := by
  by_cases h : s.bufLen = 64
  · rw [absorb_of_full b h, absorb_of_full (s := { s with dvalid := d, outstanding := o }) b h]; rfl
  · rw [absorb_of_room b h, absorb_of_room (s := { s with dvalid := d, outstanding := o }) b h]; rfl

theorem absorbAll_set_flags (l : List Byte) (s : State) (d : Bool) (o : Option Response) :
    absorbAll l { s with dvalid := d, outstanding := o } = { absorbAll l s with dvalid := d, outstanding := o } := by
  induction l generalizing s with
  | nil => rfl
  | cons b l ih => rw [absorbAll_cons, absorbAll_cons, absorb_set_flags, ih]

/-- The state a successful WRITE of the bytes leaves, whatever its response, is fed the rest. -/
theorem fed_append (l m : List Byte) (s : State) (o : Option Response) :
    fed m { absorbAll l s with dvalid := s.dvalid && l.isEmpty, outstanding := o } = fed (l ++ m) s := by
  rw [fed, absorbAll_set_flags, fed, absorbAll_append]
  cases l <;> simp

theorem isEmpty_writeBytes (n : Byte) (arg : Word) : (writeBytes n.toNat arg).isEmpty = (n == 0) := by
  rw [Bool.eq_iff_iff, List.isEmpty_iff_length_eq_zero, length_writeBytes, beq_iff_eq, ← BitVec.toNat_inj]
  rfl

theorem exec_write_of_legal {n : Byte} {s : State} (arg : Word) (hcount : n.toNat ≤ 4) (heng : s.configured = true) :
    exec (.write n arg) s =
      .next { absorbAll (writeBytes n.toNat arg) s with
                dvalid := s.dvalid && (writeBytes n.toNat arg).isEmpty,
                outstanding := some ⟨0x00, n.setWidth 32⟩ } := by
  have hnot : ¬ Config.maxWriteBytes < n.toNat := Nat.not_lt.mpr hcount
  simp only [exec, execWrite, if_neg hnot, heng, if_true, absorbAll_dvalid, isEmpty_writeBytes]
  rfl

/-- With an engine a list of legal WRITEs feeds its bytes; only the response tells it from another list of the same
bytes (R92). -/
theorem execAll_writeCmds (ws : List (Byte × Word)) {s : State} (heng : s.configured = true) (hws : CountsLegal ws) :
    ∃ t, execAll (writeCmds ws) s = .next t ∧ unanswered t = fed (writtenBytes ws) s := by
  induction ws generalizing s with
  | nil => exact ⟨s, rfl, by simp [unanswered, fed, writtenBytes]⟩
  | cons w ws ih =>
    have hexec := exec_write_of_legal w.2 (hws w List.mem_cons_self) heng
    obtain ⟨t, ht, hfed⟩ := ih (exec_configured_mono hexec heng) fun x hx => hws x (List.mem_cons_of_mem w hx)
    refine ⟨t, ?_, hfed.trans (fed_append _ _ _ _)⟩
    simp only [writeCmds, List.map_cons, execAll, hexec]
    exact ht

/-! The lists of WRITEs with given bytes: WRITEB's, and one per byte. -/

theorem writeBytes_wordOfBytes {n : Nat} (b0 b1 b2 b3 : Byte) (hn : n ≤ 4) :
    writeBytes n (wordOfBytes b0 b1 b2 b3) = [b0, b1, b2, b3].take n := by
  obtain ⟨h0, h1, h2, h3⟩ := wordByte_wordOfBytes b0 b1 b2 b3
  have hall : (List.range 4).map (wordByte (wordOfBytes b0 b1 b2 b3)) = [b0, b1, b2, b3] := by
    simp [List.range_succ, h0, h1, h2, h3]
  rw [← hall, ← List.map_take, List.take_range, Nat.min_eq_left hn, writeBytes]

/-- The operands are those of legal WRITEs that carry the bytes. -/
def Carries (ws : List (Byte × Word)) (l : List Byte) : Prop := CountsLegal ws ∧ writtenBytes ws = l

theorem carries_nil : Carries [] [] := ⟨nofun, rfl⟩

theorem carries_cons {n : Byte} {arg : Word} {w l : List Byte} {ws : List (Byte × Word)} (hcount : n.toNat ≤ 4)
    (hw : writeBytes n.toNat arg = w) (hws : Carries ws l) : Carries ((n, arg) :: ws) (w ++ l) := by
  obtain ⟨hlegal, rfl⟩ := hws
  subst hw
  exact ⟨List.forall_mem_cons.mpr ⟨hcount, hlegal⟩, List.flatMap_cons⟩

/-- The WRITEs of WRITEB carry exactly its bytes. -/
theorem exists_carries_writeb (l : List Byte) : ∃ ws, writeb l = writeCmds ws ∧ Carries ws l := by
  induction l using writeb.induct with
  | case1 b0 b1 b2 b3 rest ih =>
    obtain ⟨ws, hcmds, hcarries⟩ := ih
    refine ⟨(4, wordOfBytes b0 b1 b2 b3) :: ws, ?_, ?_⟩
    · rw [writeb, hcmds]; rfl
    · exact carries_cons (n := 4) (by decide) (writeBytes_wordOfBytes b0 b1 b2 b3 (by decide)) hcarries
  | case2 b0 b1 b2 =>
    exact ⟨[(3, wordOfBytes b0 b1 b2 0)], rfl,
      carries_cons (n := 3) (by decide) (writeBytes_wordOfBytes b0 b1 b2 0 (by decide)) carries_nil⟩
  | case3 b0 b1 =>
    exact ⟨[(2, wordOfBytes b0 b1 0 0)], rfl,
      carries_cons (n := 2) (by decide) (writeBytes_wordOfBytes b0 b1 0 0 (by decide)) carries_nil⟩
  | case4 b0 =>
    exact ⟨[(1, wordOfBytes b0 0 0 0)], rfl,
      carries_cons (n := 1) (by decide) (writeBytes_wordOfBytes b0 0 0 0 (by decide)) carries_nil⟩
  | case5 => exact ⟨[], rfl, carries_nil⟩

/-- The operands of one WRITE per byte. -/
def byteWrites (l : List Byte) : List (Byte × Word) := l.map fun b => (1, b.setWidth 32)

theorem wordByte_setWidth_zero (b : Byte) : wordByte (b.setWidth 32) 0 = b := by
  apply BitVec.eq_of_getLsbD_eq
  intro i hi
  rw [getLsbD_wordByte _ _ _ hi, BitVec.getLsbD_setWidth]
  simp [show i < 32 by omega]

theorem carries_byteWrites (l : List Byte) : Carries (byteWrites l) l := by
  induction l with
  | nil => exact carries_nil
  | cons b l ih =>
    have hbyte : writeBytes 1 (b.setWidth 32) = [b] := congrArg List.singleton (wordByte_setWidth_zero b)
    exact carries_cons (n := 1) (by decide) hbyte ih

theorem writeCmds_byteWrites (l : List Byte) :
    writeCmds (byteWrites l) = l.map fun b => .write 1 (b.setWidth 32) := List.map_map

/-- Settles O57: both are lists of legal WRITEs of the same bytes. -/
theorem writebFeedsItsBytes : Obligations.WritebFeedsItsBytes := by
  intro s l heng
  obtain ⟨ws, hcmds, hlegal, hbytes⟩ := exists_carries_writeb l
  obtain ⟨hlegal', hbytes'⟩ := carries_byteWrites l
  obtain ⟨t, ht, hfed⟩ := execAll_writeCmds ws heng hlegal
  obtain ⟨u, hu, hfed'⟩ := execAll_writeCmds (byteWrites l) heng hlegal'
  rw [hbytes] at hfed
  rw [hbytes'] at hfed'
  exact ⟨t, u, hcmds ▸ ht, writeCmds_byteWrites l ▸ hu, hfed.trans hfed'.symm⟩

/-! Staging a byte array word by word. -/

/-- The registers are the words of a byte array of the state that `put` replaces. -/
structure StagesArray {m n : Nat} (reg : Fin m → Reg) (put : Vector Byte n → State → State) : Prop where
  write : ∀ b s i a, writeReg (put b s) a (reg i) = some (put (setLe32 b i.val a) s)
  answered : ∀ b s v, put b (answered s v) = answered (put b s) v

def State.withKey (b : Vector Byte 32) (s : State) : State := { s with key := b }
def State.withSalt (b : Vector Byte 8) (s : State) : State := { s with salt := b }
def State.withPers (b : Vector Byte 8) (s : State) : State := { s with pers := b }

theorem stagesArray_key : StagesArray .key State.withKey := ⟨fun _ _ _ _ => rfl, fun _ _ _ => rfl⟩
theorem stagesArray_salt : StagesArray .salt State.withSalt := ⟨fun _ _ _ _ => rfl, fun _ _ _ => rfl⟩
theorem stagesArray_pers : StagesArray .pers State.withPers := ⟨fun _ _ _ _ => rfl, fun _ _ _ => rfl⟩

section
variable {m n : Nat} (reg : Fin m → Reg) (src : Vector Byte n)

/-- The CFG_WRs that stage the given words of a byte array. -/
def stageWords (is : List (Fin m)) : List Instr := is.map fun i => .cfgWr (selOfReg (reg i)) (le32 src i.val)

/-- The byte array with the given words taken from the source. -/
def copyWords (is : List (Fin m)) (b : Vector Byte n) : Vector Byte n :=
  is.foldl (fun b i => setLe32 b i.val (le32 src i.val)) b

theorem getElem_copyWords (is : List (Fin m)) (b : Vector Byte n) (k : Nat) (hk : k < n) :
    (copyWords src is b)[k] = if k / 4 ∈ is.map Fin.val then src[k] else b[k] := by
  induction is generalizing b with
  | nil => simp [copyWords]
  | cons i is ih =>
    have hword : wordByte (le32 src (k / 4)) (k % 4) = src[k] := by
      rw [wordByte_le32 _ _ _ (by omega), Nat.div_add_mod, byteAt_of_lt _ hk]
    rw [show copyWords src (i :: is) b = copyWords src is (setLe32 b i.val (le32 src i.val)) from rfl, ih,
      getElem_setLe32, List.map_cons]
    by_cases hi : k / 4 = i.val <;> simp [hi, ← hword]

theorem copyWords_all (hn : n ≤ 4 * m) (b : Vector Byte n) : copyWords src (List.finRange m) b = src := by
  apply Vector.ext
  intro k hk
  rw [getElem_copyWords, if_pos]
  exact List.mem_map.mpr ⟨⟨k / 4, by omega⟩, List.mem_finRange _, rfl⟩

variable {reg} {put : Vector Byte n → State → State}

/-- A non-empty list of staging CFG_WRs copies its words and nothing else; every response is OK with RDATA = 0. -/
theorem execAll_stageWords (hput : StagesArray reg put) (is : List (Fin m)) (hne : is ≠ []) (b : Vector Byte n)
    (s : State) : execAll (stageWords reg src is) (put b s) = .next (answered (put (copyWords src is b) s) 0) := by
  induction is generalizing b s with
  | nil => exact absurd rfl hne
  | cons i is ih =>
    have hexec := exec_cfgWr_of_writeReg (regOfSel_selOfReg (reg i)) (hput.write b s i (le32 src i.val))
    rw [← hput.answered] at hexec
    calc execAll (stageWords reg src (i :: is)) (put b s)
        = execAll (stageWords reg src is) (put (setLe32 b i.val (le32 src i.val)) (answered s 0)) := by
          rw [stageWords, List.map_cons, execAll, hexec]; rfl
      _ = .next (answered (put (copyWords src (i :: is) b) s) 0) := by
          cases is with
          | nil => rw [hput.answered]; rfl
          | cons j is => rw [ih (List.cons_ne_nil j is), hput.answered]; rfl

/-- Staging all the words stages the array. -/
theorem execAll_stageWords_all (hput : StagesArray reg put) (hm : 0 < m) (hn : n ≤ 4 * m) (b : Vector Byte n)
    (s : State) : execAll (stageWords reg src (List.finRange m)) (put b s) = .next (answered (put src s) 0) := by
  rw [execAll_stageWords src hput _ ?_ b s, copyWords_all src hn]
  exact List.ne_nil_of_length_pos (by rwa [List.length_finRange])

end

/-! RDDIGEST. -/

/-- The eight words RDDIGEST reads. -/
def digestWords (s : State) : Vector Word 8 := Vector.ofFn fun i => le32 s.digest i.val

theorem leBytes_digestWords (s : State) : leBytes (digestWords s) = s.digest := by
  apply Vector.ext
  intro k hk
  rw [getElem_leBytes, digestWords, Vector.getElem_ofFn, wordByte_le32 _ _ _ (by omega), Nat.div_add_mod,
    byteAt_of_lt _ hk]

theorem exec_rdDigest (s : State) :
    rdDigest.map (fun i => exec i s) = (digestWords s).toList.map fun v => .next (answered s v) := by
  rw [rdDigest, digestWords, Vector.toList_ofFn, List.ofFn_eq_map, List.map_map, List.map_map]
  exact List.map_congr_left fun i _ => exec_rd_selOfReg (.digest i) s

/-- Settles O58: the three staging expansions are stagings of all words of their array, and the words RDDIGEST reads are
those of DIGEST. -/
theorem pseudoInstructionsStageAndRead : Obligations.PseudoInstructionsStageAndRead := fun s =>
  ⟨fun key => execAll_stageWords_all key stagesArray_key (by decide) (by decide) s.key s,
    fun l _ => execAll_stageWords_all (padTo 8 l) stagesArray_salt (by decide) (by decide) s.salt s,
    fun l _ => execAll_stageWords_all (padTo 8 l) stagesArray_pers (by decide) (by decide) s.pers s,
    digestWords s, leBytes_digestWords s, exec_rdDigest s⟩

end Sys2Proof.Machine
end

section
/-! CFG_WR (40_parameter_block.md R61): a write of the staging register at the selector, and BAD_SEL at every other
selector. -/

namespace Sys2Proof.Machine

/-- CFG_WR of a selector outside the writable set is BAD_SEL, whether it names a read-only register or none. -/
theorem exec_cfgWr_of_not_writable {sel : Byte} (h : selWritable sel = false) (a : Word) (s : State) :
    exec (.cfgWr sel a) s = .next (failed 0x02 s) := by
  cases hsel : regOfSel sel with
  | none => simp only [exec, execCfgWr, hsel, Option.bind_none]; rfl
  | some r =>
    rw [selWritable_eq, hsel, Option.any_some] at h
    exact exec_cfgWr_of_readOnly hsel h a s

/-- The selectors R61 names as BAD_SEL are outside the writable set. -/
theorem selWritable_eq_false {sel : Byte} (h : (0x05 ≤ sel.toNat ∧ sel.toNat ≤ 0x07) ∨ 0x14 ≤ sel.toNat) :
    selWritable sel = false := by
  simp only [selWritable, Bool.or_eq_false_iff, Bool.and_eq_false_iff, decide_eq_false_iff_not]
  omega

theorem transact_of_reserved {cmd : Word} (h : cmd.toNat / 2 ^ 16 ≠ 0) (arg : Word) (s : State) :
    transact cmd arg s = .next (failed 0x01 s) :=
  transact_of_illegal (decode_of_reserved (mt (cmdRsvd_eq_zero_iff cmd).mp h) arg) s

/-- Settles O20: at the selector of a staging register CFG_WR is `writeReg` on that register, whose byte arrays change
in the bytes of one word. -/
theorem cfgWrStoresStagingRegister : Obligations.CfgWrStoresStagingRegister := by
  intro s a
  have hwrite (r : Reg) {u : State} (hu : writeReg s a r = some u) :
      exec (.cfgWr (selOfReg r) a) s = .next (answered u 0) := exec_cfgWr_of_writeReg (regOfSel_selOfReg r) hu
  exact ⟨fun i => hwrite (.cfg i) rfl, hwrite .cfg4 rfl,
    fun i => ⟨_, hwrite (.key i) rfl, fun j => getElem_setLe32 s.key i.val a j.val j.isLt⟩,
    fun i => ⟨_, hwrite (.salt i) rfl, fun j => getElem_setLe32 s.salt i.val a j.val j.isLt⟩,
    fun i => ⟨_, hwrite (.pers i) rfl, fun j => getElem_setLe32 s.pers i.val a j.val j.isLt⟩,
    fun _ hsel => exec_cfgWr_of_not_writable (selWritable_eq_false hsel) a s,
    fun _ _ hrsvd => transact_of_reserved hrsvd a s⟩

end Sys2Proof.Machine
end

section
/-! The converse of `exec_outcome`: what is known to fail or to succeed leaves exactly that state. -/

namespace Sys2Proof.Machine

theorem FailsWith.exec_eq {i : Instr} {s : State} {rc : RC} (h : FailsWith i s rc) :
    exec i s = .next (failState rc s) := by
  cases h with
  | cfgWr hsel => simp only [exec, execCfgWr, hsel, fail]
  | rd hsel => simp only [exec, execRd, hsel, fail]
  | init hcfg => simp only [exec, execInit, hcfg, fail]
  | reset heng => simp [exec, execReset, heng, fail]
  | writeCount hcount => simp only [exec, execWrite, if_pos (show Config.maxWriteBytes < _ from hcount), fail]
  | writeEngine hcount heng =>
    simp [exec, execWrite, if_neg (show ¬ Config.maxWriteBytes < _ from Nat.not_lt.mpr hcount), heng, fail]
  | sum heng => simp [exec, execSum, heng, fail]

theorem Succeeds.exec_eq {i : Instr} {s u : State} {v : Word} (h : Succeeds i s u v) :
    exec i s = .next (answered u v) := by
  cases h with
  | nop | clrerr => rfl
  | cfgWr hsel hwrite => exact exec_cfgWr_of_writeReg hsel hwrite
  | rd hsel => exact exec_rd_of_regOfSel hsel s
  | init hcfg => simp only [exec, execInit, hcfg]; rfl
  | reset heng => simp only [exec, execReset, if_pos heng]; rfl
  | write hcount heng => rw [exec_write_of_legal _ hcount heng, isEmpty_writeBytes]; rfl
  | sum heng => simp only [exec, execSum, if_pos heng]; rfl

end Sys2Proof.Machine
end

section
/-! INIT (40_parameter_block.md R62 to R70): its checks, the parameter block it latches, and the engine it builds. -/

namespace Sys2Proof.Machine

/-! The checks (R63). -/

theorem configLegal_iff (s : State) : ConfigLegal s ↔ validate s = none := by
  rw [validate_eq_none_iff, ConfigLegal, not_and, not_lt]
  rfl

theorem exec_init_of_legal {s : State} (h : ConfigLegal s) :
    exec .init s = .next (answered (reinit (latchEngine s)) 0) :=
  (Succeeds.init ((configLegal_iff s).mp h)).exec_eq

theorem exec_init_of_error {s : State} {rc : RC} (h : validate s = some rc) :
    exec .init s = .next (failed (codeOf rc) s) :=
  (FailsWith.init h).exec_eq

/-- Settles O22: with the checks before it passing, a check that holds is the value of `validate`; with none holding the
configuration is legal. -/
theorem initChecksInOrder : Obligations.InitChecksInOrder := by
  intro s size keyLen saltLen persLen badInner
  have skip {n b : Nat} {x y : Option RC} (h : n ≤ b) : (if b < n then x else y) = y := if_neg (Nat.not_lt.mpr h)
  refine ⟨fun hsize => exec_init_of_error (rc := .cfgSize) ?_,
    fun hsize hkey => exec_init_of_error (rc := .cfgKeyLen) ?_,
    fun hsize hkey hsalt => exec_init_of_error (rc := .cfgSaltLen) ?_,
    fun hsize hkey hsalt hpers => exec_init_of_error (rc := .cfgPersLen) ?_,
    fun hsize hkey hsalt hpers hinner => exec_init_of_error (rc := .cfgInnerSize) ?_,
    fun hsize hkey hsalt hpers hinner =>
      ⟨_, exec_init_of_legal ⟨hsize, hkey, hsalt, hpers, hinner⟩, rfl, rfl, rfl⟩⟩
  · exact if_pos hsize
  · exact (skip hsize).trans (if_pos hkey)
  · exact (skip hsize).trans <| (skip hkey).trans (if_pos hsalt)
  · exact (skip hsize).trans <| (skip hkey).trans <| (skip hsalt).trans (if_pos hpers)
  · exact (skip hsize).trans <| (skip hkey).trans <| (skip hsalt).trans <| (skip hpers).trans (if_pos hinner)

/-! The parameter block (R64 to R66). -/

/-- The bytes of the eight little-endian words of an array are the array (00_scope.md R10). -/
theorem leBytes_le32 (b : Vector Byte 32) : leBytes (Vector.ofFn fun i : Fin 8 => le32 b i.val) = b :=
  leBytes_digestWords { State.reset with digest := b }

theorem leBytes_latchEngine_p (s : State) : leBytes (latchEngine s).p = stagedBlock s := leBytes_le32 _

/-- Settles O24: the bytes of the latched P are the staged block, and its salt and personalization are the staged bytes
within their lengths. -/
theorem parameterBlockLayout : Obligations.ParameterBlockLayout := by
  intro s hlegal tree size salt pers leaf offset
  refine ⟨_, exec_init_of_legal hlegal, (leBytes_latchEngine_p s).trans ?_⟩
  simp only [stagedBlock, paramBlock, getElem_keepFirst]
  rfl

end Sys2Proof.Machine
end

section
/-! The engine INIT builds from a legal configuration (40_parameter_block.md R64, R65, R68), and the key block that
opens a keyed engine's stream (R69). -/

namespace Sys2Proof.Machine

/-! The lengths (R64). -/

theorem toNat_digestLength (size : Byte) :
    (digestLength size).toNat = if size.toNat = 0 then 32 else size.toNat := by
  unfold digestLength
  by_cases h : size = 0
  · subst h; rfl
  · rw [if_neg h]
    exact (if_neg fun h0 => h (BitVec.eq_of_toNat_eq h0)).symm

/-- DLEN and KLEN are six bits wide, and a legal length fits. -/
theorem toNat_setWidth_six {b : Byte} (h : b.toNat ≤ 32) : (b.setWidth 6).toNat = b.toNat := by
  rw [BitVec.toNat_setWidth]
  exact Nat.mod_eq_of_lt (by omega)

theorem toNat_latchEngine_dlen {s : State} (h : ConfigLegal s) :
    (latchEngine s).dlen.toNat = (digestLength (cfgSize s)).toNat := by
  obtain ⟨hsize, -⟩ := h
  exact toNat_setWidth_six (digestLength_range hsize).2

theorem toNat_latchEngine_klen {s : State} (h : ConfigLegal s) :
    (latchEngine s).klen.toNat = (wordByte s.cfg[0] 1).toNat := by
  obtain ⟨-, hkey, -⟩ := h
  exact toNat_setWidth_six hkey

/-! The words of P (R65, R66). -/

/-- The value of a little-endian word (00_scope.md R10). -/
theorem toNat_wordOfBytes (b0 b1 b2 b3 : Byte) :
    (wordOfBytes b0 b1 b2 b3).toNat = b0.toNat + b1.toNat * 2 ^ 8 + b2.toNat * 2 ^ 16 + b3.toNat * 2 ^ 24 := by
  have := b0.isLt
  have := b1.isLt
  have := b2.isLt
  simp only [wordOfBytes, BitVec.toNat_append]
  rw [← Nat.shiftLeft_add_eq_or_of_lt (by omega), ← Nat.shiftLeft_add_eq_or_of_lt (by omega),
    ← Nat.shiftLeft_add_eq_or_of_lt (by omega)]
  simp only [Nat.shiftLeft_eq]
  omega

theorem getElem_latchEngine_p (s : State) (i : Nat) (hi : i < 8) :
    (latchEngine s).p[i] = le32 (stagedBlock s) i := by
  rw [latchEngine_p, Vector.getElem_ofFn]

theorem wordByte_latchEngine_p (s : State) (i k : Nat) (hi : i + k / 4 < 8) :
    wordByte (latchEngine s).p[i + k / 4] (k % 4) = byteAt (stagedBlock s) (4 * i + k) := by
  rw [getElem_latchEngine_p, wordByte_le32 _ _ _ (by omega)]
  congr 1
  omega

/-- P[0] carries the digest length, the key length, the fanout and the depth. -/
theorem toNat_latchEngine_p_zero (s : State) :
    (latchEngine s).p[0].toNat = (deriveFields s).dlen.toNat + (deriveFields s).klen.toNat * 2 ^ 8
      + (deriveFields s).fanout.toNat * 2 ^ 16 + (deriveFields s).depth.toNat * 2 ^ 24 := by
  rw [getElem_latchEngine_p]
  exact toNat_wordOfBytes _ _ _ _

theorem latchEngine_p_one (s : State) : (latchEngine s).p[1] = (deriveFields s).leaf := by
  rw [getElem_latchEngine_p]
  exact wordOfBytes_wordByte _

theorem latchEngine_p_two (s : State) : (latchEngine s).p[2] = (deriveFields s).offset := by
  rw [getElem_latchEngine_p]
  exact wordOfBytes_wordByte _

/-- P[3] carries the node depth and the inner length over two zero bytes. -/
theorem toNat_latchEngine_p_three (s : State) :
    (latchEngine s).p[3].toNat = (deriveFields s).nodeDepth.toNat * 2 ^ 16 + (deriveFields s).inner.toNat * 2 ^ 24 := by
  rw [getElem_latchEngine_p]
  exact (toNat_wordOfBytes 0 0 (deriveFields s).nodeDepth (deriveFields s).inner).trans (by simp)

theorem byteAt_stagedBlock_salt (s : State) (k : Fin 8) :
    byteAt (stagedBlock s) (4 * 4 + k.val) = if k.val < (cfgSaltLen s).toNat then s.salt[k] else 0 := by
  refine Eq.trans ?_ (getElem_keepFirst (cfgSaltLen s).toNat s.salt k.val k.isLt)
  fin_cases k <;> rfl

theorem byteAt_stagedBlock_pers (s : State) (k : Fin 8) :
    byteAt (stagedBlock s) (4 * 6 + k.val) = if k.val < (cfgPersLen s).toNat then s.pers[k] else 0 := by
  refine Eq.trans ?_ (getElem_keepFirst (cfgPersLen s).toNat s.pers k.val k.isLt)
  fin_cases k <;> rfl

/-- Settles O23: the lengths are the bytes of CFG0 in six bits, the words of P are the staged block four bytes at a
time, and `reinit` on the latched engine gives the rest. -/
theorem initBuildsEngine : Obligations.InitBuildsEngine := by
  intro s hlegal size keyLen saltLen persLen tree fanout depth ndepth inner
  have hdlen : (latchEngine s).dlen.toNat = (deriveFields s).dlen.toNat := toNat_latchEngine_dlen hlegal
  have hfanout : (deriveFields s).fanout.toNat = fanout := apply_ite BitVec.toNat _ _ _
  have hdepth : (deriveFields s).depth.toNat = depth := apply_ite BitVec.toNat _ _ _
  have hndepth : (deriveFields s).nodeDepth.toNat = ndepth := apply_ite BitVec.toNat _ _ _
  have hinner : (deriveFields s).inner.toNat = inner := apply_ite BitVec.toNat _ _ _
  refine ⟨_, exec_init_of_legal hlegal, ?_, ?_, rfl, ?_, ?_, ?_, ?_, ?_, ?_, ?_, ?_, rfl⟩
  · exact hdlen.trans (toNat_digestLength _)
  · exact toNat_latchEngine_klen hlegal
  · exact fun i => getElem_keepFirst _ _ _ _
  · have hp := toNat_latchEngine_p_zero s
    rw [← hdlen, hfanout, hdepth] at hp
    exact hp
  · exact latchEngine_p_one s
  · exact latchEngine_p_two s
  · have hp := toNat_latchEngine_p_three s
    rw [hndepth, hinner] at hp
    exact hp
  · exact fun k => (wordByte_latchEngine_p s 4 k.val (by omega)).trans (byteAt_stagedBlock_salt s k)
  · exact fun k => (wordByte_latchEngine_p s 6 k.val (by omega)).trans (byteAt_stagedBlock_pers s k)
  · exact fun i => Vector.getElem_ofFn _

/-! The key block (R69). -/

theorem getElem_keyBlock (s : State) (j : Nat) (hj : j < 64) :
    (keyBlock s)[j] = if h : j < 32 then s.keyl[j] else 0 := by
  rw [keyBlock, getElem_padTo, Vector.getElem?_toList]
  split
  · next h => rw [Vector.getElem?_eq_getElem h, Option.getD_some]
  · next h => rw [Vector.getElem?_eq_none (Nat.le_of_not_lt h), Option.getD_none]

theorem reinit_of_unkeyed {s : State} (h : s.klen = 0) :
    (reinit s).bufLen = 0 ∧ (reinit s).buf = Vector.replicate 64 0 :=
  ⟨if_pos h, if_pos h⟩

/-- Restarting a keyed engine's stream puts KEYL into an otherwise zero buffer that counts as full. -/
theorem reinit_of_keyed {s : State} (h : s.klen ≠ 0) :
    (reinit s).bufLen = 64 ∧ ∀ j : Fin 64, (reinit s).buf[j] = if h : j.val < 32 then s.keyl[j.val] else 0 := by
  rw [reinit_bufLen, reinit_buf, if_neg h, if_neg h]
  exact ⟨rfl, fun j => getElem_keyBlock s j.val j.isLt⟩

/-- Settles O25: both commands end in `reinit`, INIT with KEYL cut to KLEN bytes, RESET with KEYL zero beyond them. -/
theorem keyBlockOpensStream : Obligations.KeyBlockOpensStream := by
  refine fun s => ⟨fun hlegal => ⟨_, exec_init_of_legal hlegal, fun hkey => ?_, fun hkey => ?_⟩,
    fun heng hok => ⟨_, (Succeeds.reset heng).exec_eq, reinit_of_unkeyed, fun hkey => ?_⟩⟩
  · exact reinit_of_unkeyed (BitVec.eq_of_toNat_eq ((toNat_latchEngine_klen hlegal).trans hkey))
  · have hklen : (latchEngine s).klen ≠ 0 := by
      intro h
      rw [← toNat_latchEngine_klen hlegal, h] at hkey
      exact absurd hkey (by decide)
    obtain ⟨hlen, hbuf⟩ := reinit_of_keyed hklen
    refine ⟨hlen, fun j => (hbuf j).trans ?_⟩
    simp only [latchEngine_keyl, getElem_keepFirst]
    rfl
  · obtain ⟨hlen, hbuf⟩ := reinit_of_keyed hkey
    obtain ⟨-, -, hzero, -⟩ := hok
    refine ⟨hlen, fun j => (hbuf j).trans ?_⟩
    refine dite_congr rfl (fun hj => ?_) fun _ => rfl
    split
    · rfl
    · next hge => exact hzero ⟨j.val, hj⟩ (Nat.le_of_not_lt hge)

end Sys2Proof.Machine
end

section
/-! The engine between INITs (40_parameter_block.md R71): nothing but a successful INIT writes it, and the commands of
the stream do not look at the staging registers. -/

namespace Sys2Proof.Machine

/-- The state with other values in all staging registers. -/
def restage (cfg : Vector Word 4) (cfg4 : BitVec 2) (key : Vector Byte 32) (salt pers : Vector Byte 8) (s : State) :
    State :=
  { s with cfg := cfg, cfg4 := cfg4, key := key, salt := salt, pers := pers }

/-- The commands that read or write a staging register. -/
def usesStaging : Instr → Bool
  | .cfgWr _ _ | .rd _ | .init => true
  | .nop | .reset | .write _ _ | .sum | .clrerr => false

section
variable (cfg : Vector Word 4) (cfg4 : BitVec 2) (key : Vector Byte 32) (salt pers : Vector Byte 8)

theorem absorb_restage (s : State) (b : Byte) :
    absorb (restage cfg cfg4 key salt pers s) b = restage cfg cfg4 key salt pers (absorb s b) := by
  by_cases h : s.bufLen = 64
  · rw [absorb_of_full b h, absorb_of_full (s := restage cfg cfg4 key salt pers s) b h]; rfl
  · rw [absorb_of_room b h, absorb_of_room (s := restage cfg cfg4 key salt pers s) b h]; rfl

theorem absorbAll_restage (l : List Byte) (s : State) :
    absorbAll l (restage cfg cfg4 key salt pers s) = restage cfg cfg4 key salt pers (absorbAll l s) := by
  induction l generalizing s with
  | nil => rfl
  | cons b l ih => rw [absorbAll_cons, absorbAll_cons, absorb_restage, ih]

variable {i : Instr} {s : State} (hi : usesStaging i = false)
include hi

theorem FailsWith.restaged {rc : RC} (h : FailsWith i s rc) : FailsWith i (restage cfg cfg4 key salt pers s) rc := by
  cases h with
  | cfgWr | rd | init => cases hi
  | reset heng => exact .reset heng
  | writeCount hcount => exact .writeCount hcount
  | writeEngine hcount heng => exact .writeEngine hcount heng
  | sum heng => exact .sum heng

theorem Succeeds.restaged {u : State} {v : Word} (h : Succeeds i s u v) :
    Succeeds i (restage cfg cfg4 key salt pers s) (restage cfg cfg4 key salt pers u) v := by
  cases h with
  | cfgWr | rd | init => cases hi
  | nop => exact .nop
  | reset heng => exact .reset heng
  | @write n arg _ hcount heng =>
    have hwrite := Succeeds.write (arg := arg) (s := restage cfg cfg4 key salt pers s) hcount heng
    rw [absorbAll_restage] at hwrite
    exact hwrite
  | sum heng => exact .sum heng
  | clrerr => exact .clrerr

/-- A command that does not use the staging registers does the same whatever they hold, and leaves them. -/
theorem exec_restage :
    ∃ t, exec i s = .next t
      ∧ exec i (restage cfg cfg4 key salt pers s) = .next (restage cfg cfg4 key salt pers t) := by
  rcases exec_outcome i s with ⟨rc, hfail, -⟩ | ⟨u, v, hok, -⟩
  · exact ⟨_, hfail.exec_eq, (hfail.restaged cfg cfg4 key salt pers hi).exec_eq⟩
  · exact ⟨_, hok.exec_eq, (hok.restaged cfg cfg4 key salt pers hi).exec_eq⟩

end

/-- An INIT that does not answer OK has failed, so it has changed LASTERR alone. -/
theorem exec_init_of_not_ok {s t : State} (h : exec .init s = .next t) (hresp : t.outstanding ≠ some ⟨0x00, 0⟩) :
    ∃ rc, t = failState rc s := by
  rcases exec_cases h with ⟨rc, -, rfl⟩ | ⟨u, v, hok, rfl⟩
  · exact ⟨rc, rfl⟩
  · cases hok with
    | init => exact absurd rfl hresp

/-- A CFG_WR that answers OK has written the staging register at its selector. -/
theorem exec_cfgWr_of_ok {sel : Byte} {arg : Word} {s t : State} (h : exec (.cfgWr sel arg) s = .next t)
    (hresp : t.outstanding = some ⟨0x00, 0⟩) : ∃ r u, writeReg s arg r = some u ∧ t = answered u 0 := by
  rcases exec_cases h with ⟨rc, hfail, rfl⟩ | ⟨u, v, hok, rfl⟩
  · rw [failState_outstanding, Option.some.injEq, Response.mk.injEq] at hresp
    exact absurd hresp.1 hfail.codeOf_ne_ok
  · cases hok with
    | cfgWr _ hwrite => exact ⟨_, u, hwrite, rfl⟩

/-- Settles O54: INIT that does not answer OK has failed, and every other command keeps the engine; CFG_WR that answers
OK has written a staging register; the stream commands commute with restaging. -/
theorem engineImmutableBetweenInits : Obligations.EngineImmutableBetweenInits := by
  refine ⟨fun i s t h hcase => ?_, fun sel arg s t h hresp => ?_, fun s c c4 k sa pe n arg i hi => ?_⟩
  · by_cases hinit : i = .init
    · subst hinit
      obtain ⟨rc, rfl⟩ := exec_init_of_not_ok h (hcase.resolve_left fun hne => hne rfl)
      exact ⟨rfl, rfl, rfl, rfl, rfl⟩
    · obtain ⟨-, heng, -⟩ := onlyListedCommandsWrite i s t h
      exact (heng hinit).2
  · obtain ⟨r, u, hwrite, rfl⟩ := exec_cfgWr_of_ok h hresp
    rw [writeReg_frame hwrite]
    rfl
  · have hstaging : usesStaging i = false := by
      simp only [List.mem_cons, List.not_mem_nil, or_false] at hi
      rcases hi with rfl | rfl | rfl <;> rfl
    exact exec_restage c c4 k sa pe hstaging

end Sys2Proof.Machine
end

section
/-! The calls of a group touch disjoint words, so they commute (41_compression.md R79). -/

namespace Sys2Proof.Machine

section
variable {ia ib ic id j : Fin 16} (v : WorkVec) (x y : Word)

/-- G leaves the words at the other positions. -/
theorem getElem_mixAt_of_notMem (hj : j ∉ [ia, ib, ic, id]) : (mixAt v ia ib ic id x y)[j] = v[j] := by
  simp only [List.mem_cons, List.not_mem_nil, or_false, not_or, ← Fin.val_inj] at hj
  obtain ⟨ha, hb, hc, hd⟩ := hj
  simp [mixAt, Vector.getElem_set_ne, Ne.symm ha, Ne.symm hb, Ne.symm hc, Ne.symm hd]

/-- A word at another position may be written before G or after it. -/
theorem mixAt_set_of_notMem (w : Word) (hj : j ∉ [ia, ib, ic, id]) :
    mixAt (v.set j.val w) ia ib ic id x y = (mixAt v ia ib ic id x y).set j.val w := by
  simp only [List.mem_cons, List.not_mem_nil, or_false, not_or, ← Fin.val_inj] at hj
  obtain ⟨ha, hb, hc, hd⟩ := hj
  simp [mixAt, Vector.getElem_set_ne, Vector.set_comm _ _ ha, Vector.set_comm _ _ hb, Vector.set_comm _ _ hc,
    Vector.set_comm _ _ hd, ha, hb, hc, hd]

end

/-- Two calls of G at disjoint positions commute. -/
theorem mixAt_comm {ia ib ic id ja jb jc jd : Fin 16} (hdisj : ∀ i ∈ [ia, ib, ic, id], i ∉ [ja, jb, jc, jd])
    (v : WorkVec) (x y x' y' : Word) :
    mixAt (mixAt v ia ib ic id x y) ja jb jc jd x' y' = mixAt (mixAt v ja jb jc jd x' y') ia ib ic id x y := by
  have ha := hdisj ia (by simp)
  have hb := hdisj ib (by simp)
  have hc := hdisj ic (by simp)
  have hd := hdisj id (by simp)
  conv_lhs => arg 1; rw [mixAt]
  conv_rhs => rw [mixAt]
  simp only [mixAt_set_of_notMem, getElem_mixAt_of_notMem, ha, hb, hc, hd, not_false_eq_true]

/-- Settles O43: different columns are disjoint sets of positions, and so are different diagonals. -/
theorem groupedMixesCommute : Obligations.GroupedMixesCommute := by
  intro v c d x y x' y' hcd
  exact ⟨mixAt_comm (by decide +revert) v x y x' y', mixAt_comm (by decide +revert) v x y x' y'⟩

end Sys2Proof.Machine
end

section
/-! G, the round and the rounds (41_compression.md R75, R78 to R80). -/

namespace Sys2Proof.Machine

/-- SIGMA as the list of its rows 0 to 9. -/
theorem SIGMA_toList : SIGMA.toList = (List.finRange 10).map fun r => SIGMA[r] := by decide

/-- Settles O44: the rotations are the library's; the calls of a round are those of the columns and the diagonals by
definition, and on the vector's sixteen words each call says which four it changes; SIGMA is a finite table. -/
theorem roundIsColumnsThenDiagonals : Obligations.RoundIsColumnsThenDiagonals := by
  refine ⟨fun a b c d x y => ?_, fun m v row => rfl, fun m v row => ?_, by decide, by decide, fun m v => ?_⟩
  · simp only [mixG, rotr_eq_rotateRight, Nat.reduceLT]
  · intros
    conv_lhs => rw [workVec_eq v]
    simp only [mixRound, mixAt_column0, mixAt_column1, mixAt_column2, mixAt_column3, mixAt_diagonal0, mixAt_diagonal1,
      mixAt_diagonal2, mixAt_diagonal3]
    rfl
  · rw [mixRounds, SIGMA_toList, List.foldl_map]

end Sys2Proof.Machine
end

section
/-! The constants, the message words, the working vector and the output of F (41_compression.md R74, R76, R77, R81). -/

namespace Sys2Proof.Machine

/-- Byte j of message word i is byte 4i+j of the block (R76). -/
theorem wordByte_messageWords (block : Vector Byte 64) (i : Fin 16) (j : Fin 4) :
    wordByte (messageWords block)[i] j = block[4 * i.val + j.val] := by
  have hword : (messageWords block)[i] = le32 block i.val := by simp [messageWords]
  rw [hword, wordByte_le32 block i j j.isLt, byteAt_of_lt]

section
variable (h : Vector Word 8) (block : Vector Byte 64) (t : Count) (f0 f1 : Word) (i : Fin 8)

/-- The lower half of the working vector before the rounds is the chaining value (R77). -/
theorem getElem_workInit : (workInit h t f0 f1)[i.val] = h[i] := by
  fin_cases i <;> rfl

/-- The upper half is IV with the halves of the count and the flags XORed in (R77). -/
theorem getElem_workInit_add_eight :
    (workInit h t f0 f1)[i.val + 8] = (IV[i] ^^^
      (if i = 4 then BitVec.ofNat 32 t.toNat else if i = 5 then BitVec.ofNat 32 (t.toNat / 2 ^ 32)
        else if i = 6 then f0 else if i = 7 then f1 else 0)) := by
  have hlow : t.extractLsb' 0 32 = BitVec.ofNat 32 t.toNat := rfl
  have hhigh : t.extractLsb' 32 32 = BitVec.ofNat 32 (t.toNat / 2 ^ 32) := by
    rw [BitVec.extractLsb', Nat.shiftRight_eq_div_pow]
  fin_cases i <;> simp [workInit, hlow, hhigh]

/-- An output word is made of the input word and the two working words i and i+8 after the rounds (R81). -/
theorem getElem_compressF :
    (compressF h block t f0 f1)[i] = h[i] ^^^ (mixRounds (messageWords block) (workInit h t f0 f1))[i.val]
      ^^^ (mixRounds (messageWords block) (workInit h t f0 f1))[i.val + 8] := by
  simp [compressF]

end

/-- Settles O42: IV is the listed constants, and each other clause is the lemma about the function it names. -/
theorem workingVectorAndOutput : Obligations.WorkingVectorAndOutput :=
  ⟨rfl, wordByte_messageWords, fun h block t f0 f1 i =>
    ⟨getElem_workInit h t f0 f1 i, getElem_workInit_add_eight h t f0 f1 i, getElem_compressF h block t f0 f1 i⟩⟩

end Sys2Proof.Machine
end

section
/-! The byte string the stream stands for (42_streaming.md R84, R95): absorbing a byte extends it, restarting makes it
the key block, and finalization is its BLAKE2s digest (R88). -/

namespace Sys2Proof.Machine

/-! BUFLEN as a number (10_state.md R26). -/

theorem bufLen_eq_full_iff (s : State) : s.bufLen = 64 ↔ s.bufLen.toNat = 64 := by
  rw [← BitVec.toNat_inj]
  rfl

theorem toNat_bufLen_appendByte (b : Byte) {s : State} (h : s.bufLen.toNat ≤ 64) :
    (appendByte b s).bufLen.toNat = s.bufLen.toNat + 1 := by
  rw [appendByte_bufLen, BitVec.toNat_add]
  exact Nat.mod_eq_of_lt (Nat.lt_of_le_of_lt (Nat.add_le_add_right h 1) (by decide))

/-! Zero-padded byte strings. -/

theorem padTo_append_singleton (n : Nat) (l : List Byte) (b : Byte) :
    padTo n (l ++ [b]) = (padTo n l).setIfInBounds l.length b := by
  apply Vector.ext
  intro i hi
  rw [getElem_padTo, Vector.getElem_setIfInBounds, getElem_padTo, List.getElem?_append]
  rcases Nat.lt_trichotomy i l.length with hlt | rfl | hgt
  · rw [if_pos hlt, if_neg (Nat.ne_of_gt hlt)]
  · simp
  · rw [if_neg (Nat.not_lt_of_gt hgt), if_neg (Nat.ne_of_lt hgt), List.getElem?_eq_none (Nat.le_of_lt hgt),
      List.getElem?_eq_none (by simp; omega)]

theorem padTo_nil (n : Nat) : padTo n [] = Vector.replicate n 0 := by
  apply Vector.ext
  intro i hi
  simp

theorem padTo_toList {n : Nat} (v : Vector Byte n) : padTo n v.toList = v := by
  apply Vector.ext
  intro i hi
  simp [hi]

theorem keepFirst_padTo (n : Nat) (l : List Byte) : keepFirst l.length (padTo n l) = padTo n l := by
  refine keepFirst_eq_self _ _ fun i hi hlen => ?_
  rw [getElem_padTo, List.getElem?_eq_none hlen, Option.getD_none]

/-! The blocks compressed so far (R82, R95). -/

/-- The chaining value after whole blocks of a string does not depend on what follows them. -/
theorem chainAfter_append (h : Vector Word 8) (m l : List Byte) {k : Nat} (hk : 64 * k ≤ m.length) :
    chainAfter h (m ++ l) k = chainAfter h m k := by
  induction k with
  | zero => rfl
  | succ k ih =>
    have hblock : ((m ++ l).drop (64 * k)).take 64 = (m.drop (64 * k)).take 64 := by
      rw [List.drop_append_of_le_length (by omega), List.take_append_of_le_length (by rw [List.length_drop]; omega)]
    rw [chainAfter, chainAfter, ih (by omega), hblock]

/-- The last block is kept, so at most 64 bytes are not yet compressed. -/
theorem flushCount_bounds (len : Nat) : 64 * flushCount len ≤ len ∧ len ≤ 64 * flushCount len + 64 := by
  unfold flushCount; omega

theorem flushCount_succ_of_room {len : Nat} (h : len - 64 * flushCount len ≠ 64) :
    flushCount (len + 1) = flushCount len := by
  unfold flushCount at *; omega

theorem flushCount_succ_of_full {len : Nat} (h : len - 64 * flushCount len = 64) :
    flushCount (len + 1) = flushCount len + 1 := by
  unfold flushCount at *; omega

/-! Absorbing extends the string (R86). -/

section
variable {s : State} {m : List Byte}

theorem StreamHolds.bufLen_le (h : StreamHolds s m) : s.bufLen.toNat ≤ 64 := by
  obtain ⟨-, hlen, -⟩ := h
  have := flushCount_bounds m.length
  omega

theorem StreamHolds.full_iff (h : StreamHolds s m) :
    s.bufLen = 64 ↔ m.length - 64 * flushCount m.length = 64 := by
  obtain ⟨-, hlen, -⟩ := h
  rw [bufLen_eq_full_iff, hlen]

theorem StreamHolds.append_of_room (h : StreamHolds s m) (b : Byte) (hroom : s.bufLen ≠ 64) :
    StreamHolds (absorb s b) (m ++ [b]) := by
  have hcount := flushCount_succ_of_room (mt h.full_iff.mpr hroom)
  have hsucc := toNat_bufLen_appendByte b h.bufLen_le
  obtain ⟨ht, hlen, hbuf, hh⟩ := h
  obtain ⟨hlow, hhigh⟩ := flushCount_bounds m.length
  rw [absorb_of_room b hroom, StreamHolds, List.length_append, List.length_singleton, hcount]
  refine ⟨ht, ?_, ?_, ?_⟩
  · rw [hsucc, hlen, Nat.sub_add_comm hlow]
  · rw [appendByte_buf, hbuf, hlen, List.drop_append_of_le_length hlow, padTo_append_singleton, List.length_drop]
  · rw [appendByte_h, appendByte_p, hh, chainAfter_append _ _ _ hlow]

/-- A full buffer is one more block of the string, and the byte starts the next. -/
theorem StreamHolds.append_of_full (h : StreamHolds s m) (b : Byte) (hfull : s.bufLen = 64) :
    StreamHolds (absorb s b) (m ++ [b]) := by
  have hblock := h.full_iff.mp hfull
  have hcount := flushCount_succ_of_full hblock
  obtain ⟨ht, hlen, hbuf, hh⟩ := h
  have hlength : m.length = 64 * (flushCount m.length + 1) := by omega
  have ht' : s.t + 64 = BitVec.ofNat 64 (64 * (flushCount m.length + 1)) := by
    rw [ht, Nat.mul_add, BitVec.ofNat_add]; rfl
  rw [absorb_of_full b hfull, StreamHolds, List.length_append, List.length_singleton, hcount]
  refine ⟨ht', ?_, ?_, ?_⟩
  · show 1 = _
    omega
  · rw [← hlength, List.drop_left, ← List.nil_append [b], padTo_append_singleton, padTo_nil]
    rfl
  · rw [appendByte_h, flush_h, appendByte_p, flush_p, chainAfter, ht', hh, hbuf, chainAfter_append _ _ _ (by omega),
      List.drop_append_of_le_length (by omega), List.take_left' (by rw [List.length_drop]; omega)]

theorem StreamHolds.absorbAll (h : StreamHolds s m) (l : List Byte) : StreamHolds (absorbAll l s) (m ++ l) := by
  induction l generalizing s m with
  | nil => rwa [List.append_nil]
  | cons b l ih =>
    rw [absorbAll_cons, ← List.singleton_append, ← List.append_assoc]
    by_cases hfull : s.bufLen = 64
    · exact ih (h.append_of_full b hfull)
    · exact ih (h.append_of_room b hfull)

/-- SUM's computation on the stream registers is the BLAKE2s digest of the string (R88). -/
theorem StreamHolds.finalize_eq (h : StreamHolds s m) :
    finalize s = blake2s s.p s.lastNode s.dlen.toNat m := by
  obtain ⟨ht, hlen, hbuf, hh⟩ := h
  have hcount : s.t + s.bufLen.setWidth 64 = BitVec.ofNat 64 m.length := by
    rw [← BitVec.ofNat_toNat, hlen, ht, ← BitVec.ofNat_add, Nat.add_sub_cancel' (flushCount_bounds m.length).1]
  have hblock : keepFirst s.bufLen.toNat s.buf = padTo 64 (m.drop (64 * flushCount m.length)) := by
    rw [hbuf, hlen, ← List.length_drop, keepFirst_padTo]
  simp only [finalize, hcount, hblock, hh, blake2s, flagWord, if_true]

end

/-- Restarting the stream makes the string the key block (R90). -/
theorem streamHolds_reinit (s : State) : StreamHolds (reinit s) (keyPrefix s) := by
  by_cases hkey : s.klen = 0
  · rw [keyPrefix, if_pos hkey, StreamHolds, reinit_bufLen, reinit_buf, if_pos hkey, if_pos hkey]
    exact ⟨rfl, rfl, (padTo_nil 64).symm, rfl⟩
  · have hcount : flushCount (keyBlock s).toList.length = 0 := by rw [Vector.length_toList]; rfl
    rw [keyPrefix, if_neg hkey, StreamHolds, reinit_bufLen, reinit_buf, if_neg hkey, if_neg hkey, hcount,
      Vector.length_toList]
    exact ⟨rfl, rfl, (padTo_toList _).symm, rfl⟩

/-- Settles O38: the WRITE absorbs its bytes, and the response is no part of the stream. -/
theorem writeExtendsMessage : Obligations.WriteExtendsMessage := fun _ _ arg _ heng hcount hm =>
  ⟨_, exec_write_of_legal arg hcount heng, hm.absorbAll _⟩

end Sys2Proof.Machine
end

section
/-! Runs of the stream commands (42_streaming.md R91 to R95): any legal WRITEs after INIT leave the key block and their
bytes in the stream, SUM digests them, and RESET goes back to where INIT left off. -/

namespace Sys2Proof.Machine

/-! Lists of commands. -/

theorem execAll_cons {i : Instr} {s t : State} (h : exec i s = .next t) (l : List Instr) :
    execAll (i :: l) s = execAll l t := by
  rw [execAll, h]

theorem execAll_append {l : List Instr} {s t : State} (h : execAll l s = .next t) (m : List Instr) :
    execAll (l ++ m) s = execAll m t := by
  induction l generalizing s with
  | nil => rw [execAll, Host.Outcome.next.injEq] at h; rw [List.nil_append, h]
  | cons i l ih =>
    rcases exec_outcome i s with ⟨rc, -, he⟩ | ⟨u, v, -, he⟩ <;>
    · rw [execAll_cons he] at h
      rw [List.cons_append, execAll_cons he, ih h]

theorem execAll_singleton {i : Instr} {s t : State} (h : exec i s = .next t) : execAll [i] s = .next t :=
  execAll_cons h []

/-! SUM and RESET answer for themselves: the response they find is of no account. -/

theorem exec_sum_unanswered (s : State) : exec .sum (unanswered s) = exec .sum s := rfl

theorem exec_reset_unanswered (s : State) : exec .reset (unanswered s) = exec .reset s := rfl

theorem configured_of_unanswered_eq_fed {t s : State} {l : List Byte} (h : unanswered t = fed l s) :
    t.configured = s.configured :=
  (congrArg State.configured h).trans (absorbAll_configured l s)

/-- Settles O36: either list feeds the same bytes, so only the response differs, and SUM overwrites it. -/
theorem streamingEquivalence : Obligations.StreamingEquivalence := by
  intro s ws us heng hws hus hbytes
  obtain ⟨t, ht, hfedT⟩ := execAll_writeCmds ws heng hws
  obtain ⟨u, hu, hfedU⟩ := execAll_writeCmds us heng hus
  have hsame : unanswered t = unanswered u := by rw [hfedT, hfedU, hbytes]
  refine ⟨t, u, ht, hu, hsame, ?_⟩
  rw [← exec_sum_unanswered t, hsame, exec_sum_unanswered]

/-! Restarting forgets what was fed. -/

theorem reinit_fed (l : List Byte) (s : State) : answered (reinit (fed l s)) 0 = answered (reinit s) 0 := by
  rw [fed, absorbAll_frame]; rfl

/-- WRITEs and then RESET come back to the state just after the stream was started. -/
theorem exec_reset_of_fed {s t : State} {l : List Byte} (heng : s.configured = true)
    (h : unanswered t = fed l (answered (reinit s) 0)) : exec .reset t = .next (answered (reinit s) 0) := by
  have hengFed : (fed l (answered (reinit s) 0)).configured = true := (absorbAll_configured _ _).trans heng
  rw [← exec_reset_unanswered, h, (Succeeds.reset hengFed).exec_eq, reinit_fed]
  rfl

/-- With an engine SUM succeeds after any list of legal WRITEs. -/
theorem execAll_writeCmds_sum (ws : List (Byte × Word)) {s : State} (heng : s.configured = true)
    (hws : CountsLegal ws) :
    ∃ t, unanswered t = fed (writtenBytes ws) s
      ∧ execAll (writeCmds ws ++ [.sum]) s =
          .next (answered { t with digest := padTo 32 (finalize t), dvalid := true } (t.dlen.setWidth 32)) := by
  obtain ⟨t, ht, hfed⟩ := execAll_writeCmds ws heng hws
  have hengT : t.configured = true := (configured_of_unanswered_eq_fed hfed).trans heng
  exact ⟨t, hfed, (execAll_append ht _).trans (execAll_singleton (Succeeds.sum hengT).exec_eq)⟩

/-- Settles O37: RESET after the first WRITEs is back at the state INIT left, and the rest of the two runs is the
same. -/
theorem resetEquivalence : Obligations.ResetEquivalence := by
  intro s a b hlegal ha hb
  have heng : (answered (reinit (latchEngine s)) 0).configured = true := rfl
  obtain ⟨t, ht, hfed⟩ := execAll_writeCmds a heng ha
  obtain ⟨u, -, hu⟩ := execAll_writeCmds_sum b heng hb
  refine ⟨_, ?_, (execAll_cons (exec_init_of_legal hlegal) _).trans hu⟩
  rw [execAll_cons (exec_init_of_legal hlegal), execAll_append ht, execAll_cons (exec_reset_of_fed rfl hfed), hu]

/-! The stream after INIT and WRITEs. -/

/-- The stream registers of a state that was fed bytes, whatever response it holds. -/
theorem StreamHolds.of_unanswered_eq_fed {s t : State} {m l : List Byte} (hm : StreamHolds s m)
    (h : unanswered t = fed l s) : StreamHolds t (m ++ l) := by
  have hfed : StreamHolds (fed l s) (m ++ l) := hm.absorbAll l
  rw [← h] at hfed
  exact hfed

theorem streamHolds_init (s : State) :
    StreamHolds (answered (reinit (latchEngine s)) 0) (keyPrefix (latchEngine s)) := streamHolds_reinit _

/-- Settles O39: the WRITEs leave the key block and their bytes in the stream under INIT's engine, and SUM's digest is
the BLAKE2s digest of what the stream holds. -/
theorem engineComputesBlake2s : Obligations.EngineComputesBlake2s := by
  intro s ws hlegal hws
  have heng : (answered (reinit (latchEngine s)) 0).configured = true := rfl
  obtain ⟨t, hfed, hrun⟩ := execAll_writeCmds_sum ws heng hws
  have hp : t.p = (latchEngine s).p := (congrArg State.p hfed).trans (absorbAll_p _ _)
  have hnode : t.lastNode = (latchEngine s).lastNode := (congrArg State.lastNode hfed).trans (absorbAll_lastNode _ _)
  have hdlen : t.dlen = (latchEngine s).dlen := (congrArg State.dlen hfed).trans (absorbAll_dlen _ _)
  have hdigest := ((streamHolds_init s).of_unanswered_eq_fed hfed).finalize_eq
  rw [hp, hnode, hdlen] at hdigest
  refine ⟨_, _, exec_init_of_legal hlegal, (execAll_cons (exec_init_of_legal hlegal) _).trans hrun,
    congrArg (padTo 32) hdigest, rfl, ?_⟩
  rw [answered, hdlen, BitVec.ofNat_toNat]
  rfl

/-- A keyed engine's stream starts with one whole block (R69). -/
theorem length_keyPrefix (s : State) : (keyPrefix s).length = if s.klen.toNat = 0 then 0 else 64 := by
  have hiff : s.klen = 0 ↔ s.klen.toNat = 0 := BitVec.toNat_inj.symm
  simp only [keyPrefix, hiff]
  split
  · rfl
  · exact Vector.length_toList

/-- The count and the fill length a stream has by the length of its string (R95). -/
theorem StreamHolds.bounds {s : State} {m : List Byte} (h : StreamHolds s m) :
    s.t = BitVec.ofNat 64 (64 * ((m.length - 1) / 64))
      ∧ s.bufLen.toNat = m.length - 64 * ((m.length - 1) / 64)
      ∧ s.bufLen.toNat ≤ 64 ∧ (m.length ≠ 0 → 1 ≤ s.bufLen.toNat) := by
  have hle := h.bufLen_le
  obtain ⟨ht, hlen, -⟩ := h
  unfold flushCount at ht hlen
  exact ⟨ht, hlen, hle, fun hne => by omega⟩

/-- Settles O40: INIT and the WRITEs leave a string of that length in the stream. -/
theorem boundaryBehaviour : Obligations.BoundaryBehaviour := by
  intro s ws hlegal hws len
  obtain ⟨t, ht, hfed⟩ := execAll_writeCmds ws (s := answered (reinit (latchEngine s)) 0) rfl hws
  have hlen : (keyPrefix (latchEngine s) ++ writtenBytes ws).length = len := by
    rw [List.length_append, length_keyPrefix, toNat_latchEngine_klen hlegal]
  have hbounds := ((streamHolds_init s).of_unanswered_eq_fed hfed).bounds
  rw [hlen] at hbounds
  exact ⟨t, (execAll_cons (exec_init_of_legal hlegal) _).trans ht, hbounds⟩

end Sys2Proof.Machine
end

section
/-! Invariants of the step (10_state.md R22, R26; 42_streaming.md R84): the induction over what an edge can do, done
once, and the invariants of the buffer and engine registers and of the stream. -/

namespace Sys2Proof.Machine

/-- The state with other values in LASTERR and in everything of the port. -/
def State.withPort (err : Byte) (out : Option Response) (edges : List ClockEdge) (del : List Response) (s : State) :
    State :=
  { s with lastErr := err, outstanding := out, edges := edges, delivered := del }

/-- The predicate holds after hardware reset, does not look at LASTERR and the port, and is kept by every command that
succeeds. -/
structure StepInvariant (P : State → Prop) : Prop where
  hardwareReset : ∀ s, P (hardwareReset s)
  withPort : ∀ err out edges del s, P s → P (s.withPort err out edges del)
  succeeds : ∀ i s u v, Succeeds i s u v → P s → P u

section
variable {P : State → Prop} {s t : State} (hP : StepInvariant P)
include hP

theorem StepInvariant.failState (rc : RC) (hs : P s) : P (failState rc s) :=
  hP.withPort (codeOf rc) (some ⟨codeOf rc, 0⟩) s.edges s.delivered s hs

theorem StepInvariant.deliver (hs : P s) : P (deliver s) := by
  cases hout : s.outstanding with
  | none => rwa [Machine.deliver, hout]
  | some r =>
    rw [Machine.deliver, hout]
    exact hP.withPort s.lastErr none s.edges (s.delivered ++ [r]) s hs

theorem StepInvariant.transact {cmd arg : Word} (h : transact cmd arg s = .next t) (hs : P s) : P t := by
  rcases transact_cases h with ⟨i, -, hexec⟩ | ⟨why, -, rfl⟩
  · rcases exec_cases hexec with ⟨rc, -, rfl⟩ | ⟨u, v, hok, rfl⟩
    · exact hP.failState rc hs
    · exact hP.withPort u.lastErr _ u.edges u.delivered u (hP.succeeds i s u v hok hs)
  · exact hP.failState _ hs

theorem StepInvariant.clockEdge {e : ClockEdge} (h : clockEdge e s = .next t) (hs : P s) : P t := by
  rcases clockEdge_cases h with ⟨-, rfl⟩ | ⟨-, -, -, htr⟩ | ⟨-, -, -, -, rfl⟩ | ⟨-, rfl, -⟩
  · exact hP.hardwareReset s
  · exact hP.transact htr hs
  · exact hP.deliver hs
  · exact hs

/-- Every step keeps the predicate. -/
theorem StepInvariant.step (h : step s = .next t) (hs : P s) : P t := by
  rcases step_cases h with ⟨-, rfl⟩ | ⟨e, rest, -, hedge⟩
  · exact hs
  · exact hP.clockEdge hedge (hP.withPort s.lastErr s.outstanding rest s.delivered s hs)

end

/-! The stream stands for a message (R84). -/

theorem historyOk_reinit (s : State) : HistoryOk (reinit s) := by
  refine fun _ => ⟨[], ?_⟩
  rw [List.append_nil]
  exact streamHolds_reinit s

theorem Succeeds.historyOk {i : Instr} {s u : State} {v : Word} (h : Succeeds i s u v) (hs : HistoryOk s) :
    HistoryOk u := by
  cases i with
  | nop | rd | cfgWr | sum | clrerr =>
    obtain ⟨hconf, -, hklen, hkeyl, -, hp⟩ := h.engine_frame nofun
    obtain ⟨hh, ht, hbuf, hlen⟩ := h.stream_frame nofun nofun nofun
    simp only [HistoryOk, keyPrefix, keyBlock, StreamHolds, hconf, hklen, hkeyl, hp, hh, ht, hbuf, hlen]
    exact hs
  | init | reset =>
    cases h
    exact historyOk_reinit _
  | write n arg =>
    cases h with
    | write _ heng =>
      obtain ⟨msg, hm⟩ := hs heng
      have hkey : keyPrefix (absorbAll (writeBytes n.toNat arg) s) = keyPrefix s := by
        simp only [keyPrefix, keyBlock, absorbAll_klen, absorbAll_keyl]
      have hext := hm.absorbAll (writeBytes n.toNat arg)
      rw [List.append_assoc, ← hkey] at hext
      exact fun _ => ⟨msg ++ writeBytes n.toNat arg, hext⟩

theorem stepInvariant_historyOk : StepInvariant HistoryOk where
  hardwareReset _ := nofun
  withPort _ _ _ _ _ hs := hs
  succeeds _ _ _ _ hok hs := hok.historyOk hs

/-- Settles O48: hardware reset leaves no engine, INIT and RESET start the message anew, and a WRITE appends to it. -/
theorem stepKeepsHistory : Obligations.StepKeepsHistory := fun _ _ hs h => stepInvariant_historyOk.step h hs

/-! The buffer registers (R26, R84 a and b). -/

theorem bufferOk_flush (s : State) : BufferOk (flush s) :=
  ⟨Nat.zero_le _, fun i _ => Vector.getElem_replicate i.isLt⟩

theorem bufferOk_appendByte {s : State} (b : Byte) (h : BufferOk s) (hroom : s.bufLen ≠ 64) :
    BufferOk (appendByte b s) := by
  obtain ⟨hle, hzero⟩ := h
  have hne : s.bufLen.toNat ≠ 64 := mt (bufLen_eq_full_iff s).mpr hroom
  rw [BufferOk, toNat_bufLen_appendByte b hle]
  refine ⟨by omega, fun i hi => ?_⟩
  have hbuf : (appendByte b s).buf[i] = s.buf[i] := Vector.getElem_setIfInBounds_ne i.isLt (by omega)
  rw [hbuf, hzero i (by omega)]

theorem bufferOk_absorbAll (l : List Byte) {s : State} (h : BufferOk s) : BufferOk (absorbAll l s) := by
  induction l generalizing s with
  | nil => exact h
  | cons b l ih =>
    rw [absorbAll_cons]
    by_cases hfull : s.bufLen = 64
    · rw [absorb_of_full b hfull]
      exact ih (bufferOk_appendByte b (bufferOk_flush s) nofun)
    · rw [absorb_of_room b hfull]
      exact ih (bufferOk_appendByte b h hfull)

theorem bufferOk_reinit (s : State) : BufferOk (reinit s) := by
  by_cases hkey : s.klen = 0
  · obtain ⟨hlen, hbuf⟩ := reinit_of_unkeyed hkey
    rw [BufferOk, hlen, hbuf]
    exact ⟨by decide, fun i _ => Vector.getElem_replicate i.isLt⟩
  · obtain ⟨hlen, -⟩ := reinit_of_keyed hkey
    rw [BufferOk, hlen]
    exact ⟨by decide, fun i hi => absurd i.isLt (Nat.not_lt.mpr hi)⟩

theorem Succeeds.bufferOk {i : Instr} {s u : State} {v : Word} (h : Succeeds i s u v) (hs : BufferOk s) :
    BufferOk u := by
  cases i with
  | nop | rd | cfgWr | sum | clrerr =>
    obtain ⟨-, -, hbuf, hlen⟩ := h.stream_frame nofun nofun nofun
    rw [BufferOk, hbuf, hlen]
    exact hs
  | init | reset =>
    cases h
    exact bufferOk_reinit _
  | write =>
    cases h
    exact bufferOk_absorbAll _ hs

theorem stepInvariant_bufferOk : StepInvariant BufferOk where
  hardwareReset _ := ⟨Nat.zero_le _, fun i _ => Vector.getElem_replicate i.isLt⟩
  withPort _ _ _ _ _ hs := hs
  succeeds _ _ _ _ hok hs := hok.bufferOk hs

/-! The engine registers (R22, R23). -/

/-- The engine latched from a legal configuration is a legal one (40_parameter_block.md R64 to R66). -/
theorem engineOk_latchEngine {s : State} (hlegal : ConfigLegal s) : EngineOk (latchEngine s) := by
  have hdlen : (latchEngine s).dlen.toNat = (deriveFields s).dlen.toNat := toNat_latchEngine_dlen hlegal
  have hklen : (latchEngine s).klen.toNat = (deriveFields s).klen.toNat := toNat_latchEngine_klen hlegal
  have hp0 := toNat_latchEngine_p_zero s
  have hp3 := toNat_latchEngine_p_three s
  obtain ⟨hsize, hkey, -⟩ := hlegal
  have hdrange : 1 ≤ (deriveFields s).dlen.toNat ∧ (deriveFields s).dlen.toNat ≤ 32 := digestLength_range hsize
  have hkrange : (deriveFields s).klen.toNat ≤ 32 := hkey
  refine ⟨by omega, by omega, fun i hi => ?_, ?_, ?_, ?_, ?_⟩
  · rw [hklen] at hi
    exact (getElem_keepFirst _ _ _ _).trans (if_neg (Nat.not_lt.mpr hi))
  · refine ⟨fun _ hzero => ?_, fun _ => rfl⟩
    rw [hzero] at hdlen
    exact absurd hdlen.symm (Nat.ne_of_gt hdrange.1)
  · apply BitVec.eq_of_toNat_eq
    rw [BitVec.extractLsb'_toNat, hp0, BitVec.toNat_setWidth, hdlen, Nat.shiftRight_zero]
    omega
  · apply BitVec.eq_of_toNat_eq
    rw [BitVec.extractLsb'_toNat, hp0, BitVec.toNat_setWidth, hklen, Nat.shiftRight_eq_div_pow]
    omega
  · apply BitVec.eq_of_toNat_eq
    rw [BitVec.extractLsb'_toNat, hp3, Nat.shiftRight_zero]
    show _ = 0
    omega

theorem Succeeds.engineOk {i : Instr} {s u : State} {v : Word} (h : Succeeds i s u v) (hs : EngineOk s) :
    EngineOk u := by
  by_cases hi : i = .init
  · subst hi
    cases h with
    | init hcfg => exact engineOk_latchEngine ((configLegal_iff s).mpr hcfg)
  · obtain ⟨hconf, hdlen, hklen, hkeyl, -, hp⟩ := h.engine_frame hi
    rw [EngineOk, hconf, hdlen, hklen, hkeyl, hp]
    exact hs

theorem engineOk_reset : EngineOk State.reset :=
  ⟨by decide, by decide, fun i _ => Vector.getElem_replicate i.isLt, by decide, by decide, by decide, by decide⟩

theorem stepInvariant_engineOk : StepInvariant EngineOk where
  hardwareReset _ := engineOk_reset
  withPort _ _ _ _ _ hs := hs
  succeeds _ _ _ _ hok hs := hok.engineOk hs

/-! The reset values without an engine (60_exceptions.md R109). -/

theorem Succeeds.noEngineOk {i : Instr} {s u : State} {v : Word} (h : Succeeds i s u v) (hs : NoEngineOk s) :
    NoEngineOk u := by
  cases h with
  | nop | rd | clrerr => exact hs
  | cfgWr _ hwrite => rw [writeReg_frame hwrite]; exact hs
  | init => exact nofun
  | reset heng | sum heng => exact fun hno => absurd heng (Bool.eq_false_iff.mp hno)
  | write _ heng => exact fun hno => absurd heng (Bool.eq_false_iff.mp ((absorbAll_configured _ _).symm.trans hno))

theorem stepInvariant_noEngineOk : StepInvariant NoEngineOk where
  hardwareReset _ _ := ⟨rfl, rfl, rfl, rfl, rfl, rfl, rfl, rfl, rfl, rfl, rfl⟩
  withPort _ _ _ _ _ hs := hs
  succeeds _ _ _ _ hok hs := hok.noEngineOk hs

/-- Settles O46: each of the three is an invariant of its own. -/
theorem stepKeepsRegistersLegal : Obligations.StepKeepsRegistersLegal := fun _ _ hbuf heng hno h =>
  ⟨stepInvariant_bufferOk.step h hbuf, stepInvariant_engineOk.step h heng, stepInvariant_noEngineOk.step h hno⟩

end Sys2Proof.Machine
end

section
/-! WRITE (42_streaming.md R85 to R87): its checks and frame, bytes that fit in the buffer, and bytes that overrun it. -/

namespace Sys2Proof.Machine

/-! Checks, response and frame. -/

theorem dvalid_and_isEmpty (s : State) (n : Byte) (arg : Word) :
    (s.dvalid && (writeBytes n.toNat arg).isEmpty) = if n = 0 then s.dvalid else false := by
  rw [isEmpty_writeBytes]
  split
  · next hn => rw [beq_iff_eq.mpr hn, Bool.and_true]
  · next hn => rw [beq_false_of_ne hn, Bool.and_false]

/-- Settles O26: the two checks are the ways WRITE fails, and its success absorbs the bytes. -/
theorem writeChecksAndFrame : Obligations.WriteChecksAndFrame := by
  refine fun s n arg => ⟨fun hbad => (FailsWith.writeCount hbad).exec_eq,
    fun hcount hno => (FailsWith.writeEngine hcount hno).exec_eq,
    fun hcount heng => ⟨_, exec_write_of_legal arg hcount heng, ?_⟩⟩
  rw [dvalid_and_isEmpty, BitVec.ofNat_toNat, absorbAll_frame]

/-- Settles O27: there is no byte to absorb. -/
theorem writeOfNoBytesChangesNothing : Obligations.WriteOfNoBytesChangesNothing := by
  intro s arg heng
  rw [exec_write_of_legal arg (by decide) heng]
  simp [writeBytes, answered]

/-! Bytes that fit in the buffer. -/

/-- The array with the string stored from position `k` on, cut at its end. -/
def overlay {n : Nat} (b : Vector Byte n) (k : Nat) (l : List Byte) : Vector Byte n :=
  Vector.ofFn fun i => if k ≤ i.val ∧ i.val < k + l.length then l[i.val - k]?.getD 0 else b[i]

theorem getElem_overlay {n : Nat} (b : Vector Byte n) (k : Nat) (l : List Byte) (i : Nat) (hi : i < n) :
    (overlay b k l)[i] = if k ≤ i ∧ i < k + l.length then l[i - k]?.getD 0 else b[i] := by
  rw [overlay, Vector.getElem_ofFn]
  rfl

theorem overlay_nil {n : Nat} (b : Vector Byte n) (k : Nat) : overlay b k [] = b := by
  apply Vector.ext
  intro i hi
  rw [getElem_overlay, if_neg (by simp)]

theorem overlay_setIfInBounds {n : Nat} (b : Vector Byte n) (k : Nat) (x : Byte) (l : List Byte) :
    overlay (b.setIfInBounds k x) (k + 1) l = overlay b k (x :: l) := by
  apply Vector.ext
  intro i hi
  rw [getElem_overlay, getElem_overlay, Vector.getElem_setIfInBounds, List.length_cons]
  rcases Nat.lt_trichotomy i k with hlt | rfl | hgt
  · rw [if_neg (by omega), if_neg (by omega), if_neg (by omega)]
  · simp
  · have hidx : i - k = i - (k + 1) + 1 := by omega
    rw [if_neg (Nat.ne_of_lt hgt), hidx, List.getElem?_cons_succ]
    congr 1
    rw [eq_iff_iff]
    omega

/-- Bytes for which there is room are stored behind those in the buffer, and nothing is compressed (R86). -/
theorem absorbAll_of_room (l : List Byte) {s : State} (h : s.bufLen.toNat + l.length ≤ 64) :
    absorbAll l s =
      { s with buf := overlay s.buf s.bufLen.toNat l, bufLen := BitVec.ofNat 7 (s.bufLen.toNat + l.length) } := by
  induction l generalizing s with
  | nil => rw [overlay_nil, List.length_nil, Nat.add_zero, BitVec.ofNat_toNat, BitVec.setWidth_eq]; rfl
  | cons b l ih =>
    rw [List.length_cons] at h
    have hroom : s.bufLen ≠ 64 := mt (bufLen_eq_full_iff s).mp (by omega)
    have hlen := toNat_bufLen_appendByte b (s := s) (by omega)
    rw [absorbAll_cons, absorb_of_room b hroom, ih (by rw [hlen]; omega), hlen, appendByte_buf, overlay_setIfInBounds,
      List.length_cons, Nat.add_right_comm, Nat.add_assoc]
    rfl

theorem absorbAll_of_empty (l : List Byte) {s : State} (hempty : s.bufLen = 0) (hl : l.length ≤ 64) :
    absorbAll l s = { s with buf := overlay s.buf 0 l, bufLen := BitVec.ofNat 7 l.length } := by
  have hzero : s.bufLen.toNat = 0 := congrArg BitVec.toNat hempty
  rw [absorbAll_of_room l (by omega), hzero, Nat.zero_add]

theorem toNat_ofNat_seven {k : Nat} (h : k ≤ 64) : (BitVec.ofNat 7 k).toNat = k :=
  Nat.mod_eq_of_lt (Nat.lt_of_le_of_lt h (by decide))

theorem getElem?_writeBytes {n k : Nat} (arg : Word) (hk : k < n) : (writeBytes n arg)[k]?.getD 0 = wordByte arg k := by
  simp [writeBytes, hk]

/-- Settles O28: the bytes have room. -/
theorem writeWithRoomOnlyBuffers : Obligations.WriteWithRoomOnlyBuffers := by
  intro s n arg heng hcount hroom
  have habs := absorbAll_of_room (writeBytes n.toNat arg) (s := s) (by rwa [length_writeBytes])
  rw [length_writeBytes] at habs
  refine ⟨_, exec_write_of_legal arg hcount heng, ?_⟩
  rw [habs]
  refine ⟨rfl, rfl, toNat_ofNat_seven hroom, fun i => (getElem_overlay _ _ _ i.val i.isLt).trans ?_⟩
  rw [length_writeBytes]
  split
  · next hi => exact getElem?_writeBytes arg (by omega)
  · rfl

/-! Bytes that overrun the buffer. -/

/-- A full buffer is flushed by the first of any bytes. -/
theorem absorbAll_of_full {l : List Byte} (hl : l ≠ []) {s : State} (hfull : s.bufLen = 64) :
    absorbAll l s = absorbAll l (flush s) := by
  cases l with
  | nil => exact absurd rfl hl
  | cons b l => rw [absorbAll_cons, absorbAll_cons, absorb_of_full b hfull, absorb_of_room (s := flush s) b nofun]

/-- The bytes of an overrunning WRITE that complete the block in the buffer. -/
def fillBytes (s : State) (l : List Byte) : List Byte := l.take (64 - s.bufLen.toNat)

/-- The bytes of an overrunning WRITE that start the next block. -/
def spillBytes (s : State) (l : List Byte) : List Byte := l.drop (64 - s.bufLen.toNat)

/-- Bytes that overrun the buffer, by one block at most: the first fill it, it is flushed once, and the rest start the
next block (R86). -/
theorem absorbAll_of_overrun {l : List Byte} {s : State} (hlen : s.bufLen.toNat ≤ 64)
    (hover : 64 < s.bufLen.toNat + l.length) (hl : l.length ≤ 64) :
    absorbAll l s =
      { s with
        h := compressF s.h (overlay s.buf s.bufLen.toNat (fillBytes s l)) (s.t + 64) 0 0
        t := s.t + 64
        buf := overlay (Vector.replicate 64 0) 0 (spillBytes s l)
        bufLen := BitVec.ofNat 7 (s.bufLen.toNat + l.length - 64) } := by
  have hfill : (fillBytes s l).length = 64 - s.bufLen.toNat := by
    rw [fillBytes, List.length_take]
    omega
  have hspill : (spillBytes s l).length = s.bufLen.toNat + l.length - 64 := by
    rw [spillBytes, List.length_drop]
    omega
  have hne : spillBytes s l ≠ [] := List.ne_nil_of_length_pos (by omega)
  have hfilled := absorbAll_of_room (fillBytes s l) (s := s) (by omega)
  rw [hfill, Nat.add_sub_cancel' hlen] at hfilled
  have hrest := absorbAll_of_empty (spillBytes s l) (flush_bufLen (absorbAll (fillBytes s l) s)) (by omega)
  calc absorbAll l s
      = absorbAll (spillBytes s l) (absorbAll (fillBytes s l) s) := by
        rw [← absorbAll_append, fillBytes, spillBytes, List.take_append_drop]
    _ = absorbAll (spillBytes s l) (flush (absorbAll (fillBytes s l) s)) :=
        absorbAll_of_full hne (congrArg State.bufLen hfilled)
    _ = _ := by
        rw [hrest, hfilled, hspill]
        rfl

/-- Settles O29: the block is BUF overlaid with the bytes that fill it, the new buffer an empty one overlaid with the
rest. -/
theorem writeFlushesOnce : Obligations.WriteFlushesOnce := by
  intro s n arg heng hcount hlen hover block
  have hlength := length_writeBytes n.toNat arg
  have habs := absorbAll_of_overrun (l := writeBytes n.toNat arg) hlen (by omega) (by omega)
  have hblock : overlay s.buf s.bufLen.toNat (fillBytes s (writeBytes n.toNat arg)) = block := by
    apply Vector.ext
    intro i hi
    rw [getElem_overlay, fillBytes, List.length_take, hlength, Vector.getElem_ofFn]
    by_cases hlow : i < s.bufLen.toNat
    · rw [if_neg (by omega), if_pos hlow]
      rfl
    · rw [if_pos (by omega), if_neg hlow, List.getElem?_take_of_lt (by omega), getElem?_writeBytes arg (by omega)]
  rw [hblock, hlength] at habs
  refine ⟨_, exec_write_of_legal arg hcount heng, ?_⟩
  rw [habs]
  refine ⟨rfl, rfl, toNat_ofNat_seven (by omega), fun i => (getElem_overlay _ _ _ i.val i.isLt).trans ?_⟩
  rw [spillBytes, List.length_drop, hlength, List.getElem?_drop]
  by_cases hlow : i.val < s.bufLen.toNat + n.toNat - 64
  · rw [if_pos (by omega), if_pos hlow, Nat.sub_zero, getElem?_writeBytes arg (by omega)]
  · rw [if_neg (by omega), if_neg hlow, Vector.getElem_replicate]

/-- Settles O31: the flush adds 64 to T in 64 bits, and the carry between the halves is that of the sum. -/
theorem counterCarriesAndWraps : Obligations.CounterCarriesAndWraps := by
  intro s n arg heng hcount hlen hover
  have hexec := exec_write_of_legal arg hcount heng
  obtain ⟨t, ht, hcounter, -⟩ := writeFlushesOnce s n arg heng hcount hlen hover
  have hsum : t.t.toNat = (s.t.toNat + 64) % 2 ^ 64 := by rw [hcounter, BitVec.toNat_add]; rfl
  obtain rfl := Host.Outcome.next.inj (hexec.symm.trans ht)
  have hlt := s.t.isLt
  refine ⟨_, hexec, hsum, ?_, ?_, absorbAll_lastErr _ _, ?_⟩
  · omega
  · rw [hsum]
    split <;> omega
  · rw [BitVec.ofNat_toNat]

end Sys2Proof.Machine
end

section
/-! SUM and RESET (42_streaming.md R88 to R93): the digest SUM writes and that it leaves the stream alone, and the
restart of the stream. -/

namespace Sys2Proof.Machine

/-- A word whose opcode is that of a command without a selector, and which is not that command's word, is ILLEGAL_CMD
(30_encoding.md R55). -/
theorem transact_of_other_word {i : Instr} (hfixed : opcTakesSel i.opc = false) {cmd : Word}
    (hopc : cmdOpc cmd = i.opc) (hne : cmd ≠ i.cmdWord) (arg : Word) (s : State) :
    transact cmd arg s = .next (failed 0x01 s) := by
  cases hdec : decode cmd arg with
  | illegal why => exact transact_of_illegal hdec s
  | instr j =>
    have hcmd := eq_cmdWord_of_decode hdec
    rw [hcmd, cmdOpc_cmdWord] at hopc
    rw [hcmd, Instr.cmdWord, Instr.cmdWord, j.selField_eq_zero (hopc ▸ hfixed), i.selField_eq_zero hfixed, hopc] at hne
    exact absurd rfl hne

theorem cmdOpc_eq_of_mod {cmd : Word} {opc : Byte} (h : cmd.toNat % 2 ^ 8 = opc.toNat) : cmdOpc cmd = opc :=
  BitVec.eq_of_toNat_eq ((toNat_cmdOpc cmd).trans h)

/-! SUM. -/

/-- The digest SUM writes: DLEN bytes of the output of F, then zeros (R88, R89). -/
theorem getElem_padTo_finalize (s : State) (i : Nat) (hi : i < 32) :
    (padTo 32 (finalize s))[i] =
      if i < s.dlen.toNat then
        wordByte ((compressF s.h (keepFirst s.bufLen.toNat s.buf) (s.t + s.bufLen.setWidth 64) (flagWord true)
          (flagWord s.lastNode))[i / 4]'(by omega)) (i % 4)
      else 0 := by
  rw [getElem_padTo, finalize]
  split
  · next hlt =>
    rw [List.getElem?_take_of_lt hlt, Vector.getElem?_toList, Vector.getElem?_eq_getElem hi, Option.getD_some,
      getElem_leBytes]
  · next hge =>
    rw [List.getElem?_eq_none (by rw [List.length_take]; omega), Option.getD_none]

/-- Settles O32: the digest byte by byte, and the ways SUM and its opcode's other words fail. -/
theorem sumWritesDigest : Obligations.SumWritesDigest := by
  refine fun s => ⟨fun hno => (FailsWith.sum hno).exec_eq, ?_, fun cmd arg hopc hne =>
    transact_of_other_word (i := .sum) rfl (cmdOpc_eq_of_mod hopc) hne arg s⟩
  intro heng block h' d
  have hd : padTo 32 (finalize s) = d := by
    apply Vector.ext
    intro i hi
    rw [getElem_padTo_finalize, Vector.getElem_ofFn, ← BitVec.ofNat_toNat]
    rfl
  rw [(Succeeds.sum heng).exec_eq, hd, BitVec.ofNat_toNat]

/-- The state with other values in what SUM writes, and in the response. -/
def State.withSum (d : Vector Byte 32) (v : Bool) (o : Option Response) (s : State) : State :=
  { s with digest := d, dvalid := v, outstanding := o }

theorem exec_sum_of_engine {s : State} (heng : s.configured = true) :
    exec .sum s = .next (s.withSum (padTo 32 (finalize s)) true (some ⟨0x00, s.dlen.setWidth 32⟩)) :=
  (Succeeds.sum heng).exec_eq

section
variable (d : Vector Byte 32) (v : Bool) (o : Option Response)

/-- SUM reads nothing that it writes. -/
theorem finalize_withSum (s : State) : finalize (s.withSum d v o) = finalize s :=
  finalize_congr rfl rfl rfl rfl rfl rfl

theorem absorb_withSum (s : State) (b : Byte) : absorb (s.withSum d v o) b = (absorb s b).withSum d v o := by
  by_cases h : s.bufLen = 64
  · rw [absorb_of_full b h, absorb_of_full (s := s.withSum d v o) b h]; rfl
  · rw [absorb_of_room b h, absorb_of_room (s := s.withSum d v o) b h]; rfl

/-- Absorbing does not see that a SUM has come before. -/
theorem absorbAll_withSum (l : List Byte) (s : State) :
    absorbAll l (s.withSum d v o) = (absorbAll l s).withSum d v o := by
  induction l generalizing s with
  | nil => rfl
  | cons b l ih => rw [absorbAll_cons, absorbAll_cons, absorb_withSum, ih]

variable {s : State} (heng : s.configured = true)
include heng

/-- A SUM leaves what the next SUM finds. -/
theorem exec_sum_withSum : exec .sum (s.withSum d v o) = exec .sum s := by
  rw [exec_sum_of_engine (s := s.withSum d v o) heng, exec_sum_of_engine heng, finalize_withSum]
  rfl

/-- A WRITE after a SUM absorbs into the stream that the SUM found. -/
theorem exec_write_withSum {n : Byte} (arg : Word) (hcount : n.toNat ≤ 4) :
    exec (.write n arg) (s.withSum d v o) =
      .next ((absorbAll (writeBytes n.toNat arg) s).withSum d (v && (writeBytes n.toNat arg).isEmpty)
        (some ⟨0x00, n.setWidth 32⟩)) := by
  rw [exec_write_of_legal (s := s.withSum d v o) arg hcount heng, absorbAll_withSum]
  rfl

end

/-- Settles O33: without an engine the same failure again; with one the second SUM finds what the first one found. -/
theorem sumIsIdempotent : Obligations.SumIsIdempotent := by
  intro s t h
  cases heng : s.configured with
  | false =>
    rw [(FailsWith.sum heng).exec_eq] at h
    obtain rfl := Host.Outcome.next.inj h
    exact (FailsWith.sum (s := failState .notConfigured s) heng).exec_eq
  | true =>
    have hsum := exec_sum_of_engine heng
    obtain rfl := Host.Outcome.next.inj (h.symm.trans hsum)
    rw [exec_sum_withSum _ _ _ heng, hsum]

/-- Settles O34: either WRITE fails on its count alone, or both absorb the same bytes into the same stream. -/
theorem sumDoesNotDisturbStream : Obligations.SumDoesNotDisturbStream := by
  intro s n arg heng
  have hsum := exec_sum_of_engine heng
  by_cases hcount : n.toNat ≤ 4
  · have hd : (true && (writeBytes n.toNat arg).isEmpty) = decide (n.toNat = 0 ∨ 4 < n.toNat) := by
      rw [Bool.true_and, Bool.eq_iff_iff, decide_eq_true_iff, List.isEmpty_iff_length_eq_zero, length_writeBytes]
      omega
    refine ⟨_, _, _, hsum, exec_write_withSum _ _ _ heng arg hcount, exec_write_of_legal arg hcount heng, ?_⟩
    rw [hd]
    rfl
  · have hbad : 4 < n.toNat := Nat.lt_of_not_le hcount
    refine ⟨_, _, _, hsum, (FailsWith.writeCount hbad).exec_eq, (FailsWith.writeCount hbad).exec_eq, ?_⟩
    rw [decide_eq_true (Or.inr hbad)]
    rfl

/-! RESET. -/

/-- The stream after a restart, with the key block written out (R90, 40_parameter_block.md R69). -/
theorem reinit_eq (s : State) :
    reinit s =
      { s with
        h := Vector.ofFn fun i => IV[i] ^^^ s.p[i]
        t := 0
        buf := if 0 < s.klen.toNat then Vector.ofFn fun j => if h : j.val < 32 then s.keyl[j.val] else 0
          else Vector.replicate 64 0
        bufLen := if 0 < s.klen.toNat then 64 else 0
        dvalid := false } := by
  have hblock : keyBlock s = Vector.ofFn fun j => if h : j.val < 32 then s.keyl[j.val] else 0 := by
    apply Vector.ext
    intro j hj
    rw [getElem_keyBlock, Vector.getElem_ofFn]
  have hkeyed : 0 < s.klen.toNat ↔ ¬ s.klen = 0 := by
    rw [Nat.pos_iff_ne_zero, ← BitVec.toNat_inj]
    rfl
  simp only [reinit, hkeyed, ite_not, hblock]

/-- Settles O35: RESET restarts the stream, and the ways it and its opcode's other words fail. -/
theorem resetRestartsStream : Obligations.ResetRestartsStream := by
  refine fun s => ⟨fun hno => (FailsWith.reset hno).exec_eq, ?_, fun cmd arg hopc hne =>
    transact_of_other_word (i := .reset) rfl (cmdOpc_eq_of_mod hopc) hne arg s⟩
  intro heng keyed
  rw [(Succeeds.reset heng).exec_eq, reinit_eq]

end Sys2Proof.Machine
end

section
/-! RD, NOP and CLRERR (43_engine_surface.md R97 to R99): RD's value at each selector, BAD_SEL at the unmapped ones, and
the two commands that answer 0. -/

namespace Sys2Proof.Machine

/-! RD. -/

/-- The bytes of a word read from a byte array are the array's (00_scope.md R10). -/
theorem wordByte_le32_of_lt {n : Nat} (b : Vector Byte n) (i : Nat) (j : Fin 4) (h : 4 * i + j.val < n) :
    wordByte (le32 b i) j.val = b[4 * i + j.val] := by
  rw [wordByte_le32 b i j.val j.isLt, byteAt_of_lt b h]

theorem le32_eq_zero {n : Nat} {b : Vector Byte n} {i : Nat} (h : ∀ k < 4, byteAt b (4 * i + k) = 0) :
    le32 b i = 0 := by
  rw [le32, ← Nat.add_zero (4 * i), h 0 (by decide), Nat.add_zero, h 1 (by decide), h 2 (by decide), h 3 (by decide)]
  rfl

/-- A word of BUF wholly beyond BUFLEN is zero (42_streaming.md R84 b). -/
theorem BufferOk.le32_buf_eq_zero {s : State} (hs : BufferOk s) (i : Fin 16) (hi : s.bufLen.toNat ≤ 4 * i.val) :
    le32 s.buf i.val = 0 := by
  obtain ⟨-, hzero⟩ := hs
  refine le32_eq_zero fun k hk => ?_
  have hlt : 4 * i.val + k < 64 := by omega
  rw [byteAt_of_lt s.buf hlt]
  exact hzero ⟨_, hlt⟩ (Nat.le_add_right_of_le hi)

/-- The low and the high half of T, as T0 and T1 read (10_state.md R25). -/
theorem readReg_t_zero (s : State) : readReg s (.t 0) = BitVec.ofNat 32 (s.t.toNat % 2 ^ 32) := by
  apply BitVec.eq_of_toNat_eq
  rw [BitVec.toNat_ofNat, Nat.mod_mod]
  exact BitVec.extractLsb'_toNat ..

theorem readReg_t_one (s : State) : readReg s (.t 1) = BitVec.ofNat 32 (s.t.toNat / 2 ^ 32) :=
  congrArg (BitVec.ofNat 32) (Nat.shiftRight_eq_div_pow ..)

/-- The gaps R97 leaves between the mapped ranges are outside the readable set. -/
theorem selReadable_eq_false {sel : Byte}
    (h : (0x05 ≤ sel.toNat ∧ sel.toNat ≤ 0x07) ∨ (0x14 ≤ sel.toNat ∧ sel.toNat ≤ 0x1F)
      ∨ (0x23 ≤ sel.toNat ∧ sel.toNat ≤ 0x27) ∨ (0x3A ≤ sel.toNat ∧ sel.toNat ≤ 0x3F) ∨ 0x58 ≤ sel.toNat) :
    selReadable sel = false := by
  simp only [selReadable, Bool.or_eq_false_iff, Bool.and_eq_false_iff, decide_eq_false_iff_not]
  omega

theorem exec_rd_of_not_readable {sel : Byte} (h : selReadable sel = false) (s : State) :
    exec (.rd sel) s = .next (failed 0x02 s) :=
  exec_rd_of_unmapped (Option.not_isSome_iff_eq_none.mp (by rw [regOfSel_isSome, h]; decide)) s

/-- Settles O16: RD of a register's selector answers `readReg` of it, which for the byte arrays is `le32` and for T half
of the count; the other selectors are outside the readable set. -/
theorem rdReadsEveryRegister : Obligations.RdReadsEveryRegister := by
  intro s
  have hread {r : Reg} {v : Word} (hv : readReg s r = v) : exec (.rd (selOfReg r)) s = .next (answered s v) :=
    hv ▸ exec_rd_selOfReg r s
  exact ⟨fun i => hread (r := .cfg i) rfl, hread (r := .cfg4) (BitVec.ofNat_toNat ..).symm,
    fun i => hread (r := .key i) rfl,
    fun i => ⟨_, hread (r := .salt i) rfl, fun j => wordByte_le32_of_lt s.salt i j (by omega)⟩,
    fun i => ⟨_, hread (r := .pers i) rfl, fun j => wordByte_le32_of_lt s.pers i j (by omega)⟩,
    hread (r := .status) rfl, hread (r := .engcfg) rfl, hread (r := .info) rfl,
    fun i => hread (r := .p i) rfl, fun i => hread (r := .h i) rfl,
    hread (readReg_t_zero s), hread (readReg_t_one s),
    fun i => ⟨_, hread (r := .buf i) rfl, fun j => wordByte_le32_of_lt s.buf i j (by omega)⟩,
    fun i => ⟨_, hread (r := .digest i) rfl, fun j => wordByte_le32_of_lt s.digest i j (by omega)⟩,
    fun _ hsel => exec_rd_of_not_readable (selReadable_eq_false hsel) s,
    fun hbuf i hi => hread (r := .buf i) (hbuf.le32_buf_eq_zero i hi),
    fun _ arg _ hrsvd => transact_of_reserved hrsvd arg s⟩

/-! NOP and CLRERR. -/

/-- A command without a selector takes no ARG either (30_encoding.md R51, R52). -/
theorem Instr.withFields_of_noSel {i : Instr} (h : opcTakesSel i.opc = false) (sel : Byte) (arg : Word) :
    i.withFields sel arg = i := by
  cases i with
  | nop | init | reset | sum | clrerr => rfl
  | cfgWr | rd | write => cases h

/-- A command without a selector that succeeds does so by its one word with any ARG, and no other word with its opcode
is a command. -/
theorem Succeeds.by_one_word {i : Instr} {s u : State} {v : Word} (hexec : Succeeds i s u v)
    (hnoSel : opcTakesSel i.opc = false) (arg : Word) :
    exec i s = .next (answered u v)
      ∧ transact i.cmdWord arg s = .next (answered u v)
      ∧ ∀ cmd : Word, cmd.toNat % 2 ^ 8 = i.opc.toNat → cmd ≠ i.cmdWord →
          transact cmd arg s = .next (failed 0x01 s) := by
  have hdec : decode i.cmdWord arg = .instr i := by rw [decode_cmdWord, Instr.withFields_of_noSel hnoSel]
  exact ⟨hexec.exec_eq, (transact_of_instr hdec s).trans hexec.exec_eq,
    fun _ hopc hne => transact_of_other_word hnoSel (cmdOpc_eq_of_mod hopc) hne arg s⟩

/-- Settles O14: NOP succeeds with RDATA = 0 on the state as it is. -/
theorem nopWritesNothing : Obligations.NopWritesNothing := fun _ arg => Succeeds.nop.by_one_word rfl arg

/-- Settles O15: CLRERR succeeds with RDATA = 0 on the state with LASTERR cleared. -/
theorem clrerrClearsLastErr : Obligations.ClrerrClearsLastErr := fun _ arg => Succeeds.clrerr.by_one_word rfl arg

end Sys2Proof.Machine
end

section
/-! The rules of 60_exceptions.md: what a transaction can leave, said once, and from it the answer to every word (R103),
the listed codes (R104), the failing command (R105), LASTERR (R106), and the commands that need an engine (R109). -/

namespace Sys2Proof.Machine

/-! A transaction fails or is a command that succeeds. -/

/-- Every word in every state fails with some error, or is a command that succeeds. -/
theorem transact_outcome (cmd arg : Word) (s : State) :
    (∃ rc, codeOf rc ≠ 0x00 ∧ transact cmd arg s = .next (failState rc s))
      ∨ ∃ i u v, decode cmd arg = .instr i ∧ Succeeds i s u v ∧ transact cmd arg s = .next (answered u v) := by
  cases hdec : decode cmd arg with
  | illegal why => exact .inl ⟨.illegalCmd, by decide, transact_of_illegal hdec s⟩
  | instr i =>
    rw [transact_of_instr hdec]
    rcases exec_outcome i s with ⟨rc, hfail, he⟩ | ⟨u, v, hok, he⟩
    · exact .inl ⟨rc, hfail.codeOf_ne_ok, he⟩
    · exact .inr ⟨i, u, v, rfl, hok, he⟩

/-- What is known of a transaction that has left a state. -/
theorem transact_next_cases {cmd arg : Word} {s t : State} (h : transact cmd arg s = .next t) :
    (∃ rc, codeOf rc ≠ 0x00 ∧ t = failState rc s)
      ∨ ∃ i u v, decode cmd arg = .instr i ∧ Succeeds i s u v ∧ t = answered u v := by
  rcases transact_outcome cmd arg s with ⟨rc, hrc, he⟩ | ⟨i, u, v, hdec, hok, he⟩ <;>
    rw [h, Host.Outcome.next.injEq] at he
  · exact .inl ⟨rc, hrc, he⟩
  · exact .inr ⟨i, u, v, hdec, hok, he⟩

/-! Listed codes (R104), and an answer to every word (R103). -/

theorem codeOf_mem_listedCodes (rc : RC) : codeOf rc ∈ listedCodes := by
  cases rc <;> decide

theorem responseOk_error (rc : RC) : responseOk ⟨codeOf rc, 0⟩ := ⟨codeOf_mem_listedCodes rc, fun _ => rfl⟩

theorem responseOk_ok (v : Word) : responseOk ⟨0x00, v⟩ := ⟨codeOf_mem_listedCodes .ok, fun h => absurd rfl h⟩

/-- A transaction leaves a next state with a response the block may give. -/
theorem transact_answers (cmd arg : Word) (s : State) :
    ∃ t r, transact cmd arg s = .next t ∧ t.outstanding = some r ∧ responseOk r := by
  rcases transact_outcome cmd arg s with ⟨rc, -, he⟩ | ⟨i, u, v, -, -, he⟩
  · exact ⟨_, _, he, rfl, responseOk_error rc⟩
  · exact ⟨_, _, he, rfl, responseOk_ok v⟩

theorem clockEdge_goes (e : ClockEdge) (s : State) : Goes (clockEdge e s) := by
  unfold clockEdge
  split
  · exact ⟨_, rfl⟩
  · split
    · obtain ⟨t, -, htr, -⟩ := transact_answers e.cmdWord e.cmdArg s
      exact ⟨t, htr⟩
    · split <;> exact ⟨_, rfl⟩

/-- Settles O11: a transaction fails or succeeds, with a response either way; a step is no edge or one edge, and an edge
stops only if its transaction does. -/
theorem everyCommandAnswers : Obligations.EveryCommandAnswers := by
  refine ⟨transact_answers, fun s => ?_⟩
  cases hedges : s.edges with
  | nil => exact ⟨s, step_of_nil hedges⟩
  | cons e rest => exact step_of_cons hedges ▸ clockEdge_goes e _

theorem codesOk_deliver {s : State} (hs : CodesOk s) : CodesOk (deliver s) := by
  obtain ⟨herr, hout, hdel⟩ := hs
  refine ⟨by rwa [deliver_lastErr], by simp, fun r hr => ?_⟩
  rw [deliver_delivered, List.mem_append, Option.mem_toList] at hr
  exact hr.elim (hdel r) (hout r)

theorem codesOk_hardwareReset {s : State} (hs : CodesOk s) : CodesOk (hardwareReset s) :=
  have ⟨_, _, hdel⟩ := hs
  ⟨codeOf_mem_listedCodes .ok, nofun, hdel⟩

theorem Succeeds.lastErr_mem_listedCodes {i : Instr} {s u : State} {v : Word} (h : Succeeds i s u v)
    (hs : s.lastErr ∈ listedCodes) : u.lastErr ∈ listedCodes := by
  by_cases hi : i = .clrerr
  · subst hi
    cases h
    exact codeOf_mem_listedCodes .ok
  · rwa [h.lastErr_frame hi]

theorem transact_codesOk {cmd arg : Word} {s t : State} (h : transact cmd arg s = .next t) (hs : CodesOk s) :
    CodesOk t := by
  obtain ⟨herr, -, hdel⟩ := hs
  rcases transact_next_cases h with ⟨rc, -, rfl⟩ | ⟨i, u, v, -, hok, rfl⟩
  · exact ⟨codeOf_mem_listedCodes rc, fun r hr => Option.some.inj hr ▸ responseOk_error rc, hdel⟩
  · exact ⟨hok.lastErr_mem_listedCodes herr, fun r hr => Option.some.inj hr ▸ responseOk_ok v,
      hok.port_frame.2 ▸ hdel⟩

theorem clockEdge_codesOk {e : ClockEdge} {s t : State} (h : clockEdge e s = .next t) (hs : CodesOk s) :
    CodesOk t := by
  rcases clockEdge_cases h with ⟨-, rfl⟩ | ⟨-, -, -, htr⟩ | ⟨-, -, -, -, rfl⟩ | ⟨-, rfl, -⟩
  · exact codesOk_hardwareReset hs
  · exact transact_codesOk htr hs
  · exact codesOk_deliver hs
  · exact hs

/-- Settles O49: consuming the edge leaves every code, and each of the four things an edge can do keeps them listed. -/
theorem stepKeepsCodesListed : Obligations.StepKeepsCodesListed := by
  intro s t hs h
  rcases step_cases h with ⟨-, rfl⟩ | ⟨e, rest, -, hedge⟩
  · exact hs
  · exact clockEdge_codesOk hedge hs

/-! The failing command (R105) and LASTERR (R106). -/

/-- Settles O50: an error code is not the OK of a command that succeeds, so the transaction has failed, with that
code. -/
theorem failedCommandChangesOnlyLastErr : Obligations.FailedCommandChangesOnlyLastErr := by
  intro cmd arg s t r h hr hcode
  rcases transact_next_cases h with ⟨rc, -, rfl⟩ | ⟨i, u, v, -, -, rfl⟩ <;> obtain rfl := Option.some.inj hr
  · rfl
  · exact absurd rfl hcode

/-- A transaction answered OK ran a command that succeeds. -/
theorem succeeds_of_ok {cmd arg : Word} {s t : State} {r : Response} (h : transact cmd arg s = .next t)
    (hr : t.outstanding = some r) (hcode : r.code = 0x00) :
    ∃ i u v, decode cmd arg = .instr i ∧ Succeeds i s u v ∧ t = answered u v := by
  rcases transact_next_cases h with ⟨rc, hrc, rfl⟩ | hok
  · obtain rfl := Option.some.inj hr
    exact absurd hcode hrc
  · exact hok

/-- Settles O51: a failing transaction leaves `failed`, a command that succeeds keeps LASTERR unless it is CLRERR, and
LASTERR is a field of the word that RD STATUS answers. -/
theorem lastErrFollowsFailures : Obligations.LastErrFollowsFailures := by
  refine ⟨fun cmd arg s t r h hr => ⟨fun hcode => ?_, fun hcode hclr => ?_, fun hcode hclr => ?_⟩, fun _ => rfl,
    fun s => ?_⟩
  · rw [failedCommandChangesOnlyLastErr cmd arg s t r h hr hcode]
    rfl
  · obtain ⟨i, u, v, hdec, hok, rfl⟩ := succeeds_of_ok h hr hcode
    obtain rfl : i = .clrerr := Decoded.instr.inj (hdec.symm.trans hclr)
    cases hok
    rfl
  · obtain ⟨i, u, v, hdec, hok, rfl⟩ := succeeds_of_ok h hr hcode
    exact hok.lastErr_frame fun hi => hclr (hi ▸ hdec)
  · obtain ⟨-, herr, -⟩ := statusWord_fields s
    exact ⟨statusWord s, exec_rd_selOfReg .status s, herr⟩

/-! The commands that need an engine (R109). -/

/-- The commands that work on the stream of an engine. -/
def needsEngine : Instr → Bool
  | .reset | .write _ _ | .sum => true
  | .nop | .cfgWr _ _ | .rd _ | .init | .clrerr => false

/-- Only a command that needs an engine reports that there is none. -/
theorem FailsWith.codeOf_ne_notConfigured {i : Instr} {s : State} {rc : RC} (h : FailsWith i s rc)
    (hi : needsEngine i = false) : codeOf rc ≠ 0x04 := by
  cases h with
  | cfgWr | rd => decide
  | init hcfg => rcases validate_code hcfg with rfl | rfl | rfl | rfl | rfl <;> decide
  | reset | writeCount | writeEngine | sum => cases hi

theorem exec_code_ne_notConfigured {i : Instr} (hi : needsEngine i = false) (s : State) :
    ∃ t r, exec i s = .next t ∧ t.outstanding = some r ∧ r.code ≠ 0x04 := by
  rcases exec_outcome i s with ⟨rc, hfail, he⟩ | ⟨u, v, -, he⟩
  · exact ⟨_, _, he, rfl, hfail.codeOf_ne_notConfigured hi⟩
  · exact ⟨_, _, he, rfl, (by decide : codeOf .ok ≠ 0x04)⟩

/-- A command that makes an engine where there was none is an INIT that succeeds. -/
theorem exec_creates_engine {i : Instr} {s t : State} (hno : s.configured = false) (h : exec i s = .next t)
    (heng : t.configured = true) : i = .init ∧ t.outstanding = some ⟨0x00, 0⟩ := by
  rcases exec_cases h with ⟨rc, -, rfl⟩ | ⟨u, v, hok, rfl⟩
  · exact absurd (hno.symm.trans heng) nofun
  · by_cases hi : i = .init
    · subst hi
      cases hok
      exact ⟨rfl, rfl⟩
    · obtain ⟨hconf, -⟩ := hok.engine_frame hi
      exact absurd ((hconf.trans hno).symm.trans heng) nofun

/-- Settles O52: with no engine the three commands fail by their own check, the other five never report that code, and
CONFIGURED is set by INIT alone. -/
theorem streamCommandsNeedEngine : Obligations.StreamCommandsNeedEngine := by
  refine ⟨rfl, fun s hno => ⟨fun n arg hcount => (FailsWith.writeEngine hcount hno).exec_eq,
    (FailsWith.sum hno).exec_eq, (FailsWith.reset hno).exec_eq, fun sel arg i hi => ?_,
    fun i t h heng => exec_creates_engine hno h heng⟩⟩
  have hother : ∀ j ∈ [Instr.nop, .cfgWr sel arg, .rd sel, .init, .clrerr], needsEngine j = false := by
    simp [needsEngine]
  exact exec_code_ne_notConfigured (hother i hi) s

end Sys2Proof.Machine
end

section
/-! Hardware reset (70_reset_and_hazards.md R121, R122): the edge with rst_n = 0, and the invariants of the state after
it. -/

namespace Sys2Proof.Machine

theorem clockEdge_of_reset {e : ClockEdge} (hrst : e.rstN = false) (s : State) :
    clockEdge e s = .next (hardwareReset s) := by
  simp [clockEdge, hrst]

theorem cmdReady_of_reset {e : ClockEdge} (hrst : e.rstN = false) (s : State) : cmdReady e s = false := by
  simp [cmdReady, hrst]

theorem rspValid_of_reset {e : ClockEdge} (hrst : e.rstN = false) (s : State) : rspValid e s = false := by
  simp [rspValid, hrst]

/-- Settles O9: rst_n gates both handshake outputs, and the edge is a hardware reset whatever else the pins carry. -/
theorem hardwareResetDiscardsCommand : Obligations.HardwareResetDiscardsCommand := by
  intro s e rest hedges hrst
  exact ⟨cmdReady_of_reset hrst s, rspValid_of_reset hrst s, (step_of_cons hedges).trans (clockEdge_of_reset hrst _)⟩

theorem hardwareReset_reset : hardwareReset State.reset = State.reset := rfl

/-- What holds after every hardware reset holds of the reset state. -/
theorem StepInvariant.reset {P : State → Prop} (hP : StepInvariant P) : P State.reset :=
  hardwareReset_reset ▸ hP.hardwareReset State.reset

/-- The reset state holds LASTERR = 0x00 and no response. -/
theorem codesOk_reset : CodesOk State.reset :=
  ⟨codeOf_mem_listedCodes .ok, nofun, nofun⟩

/-- Settles O45: four of the six are invariants of the step, DVALID is 0, and no code is held but 0x00. -/
theorem resetMeetsInvariants : Obligations.ResetMeetsInvariants :=
  ⟨stepInvariant_bufferOk.reset, stepInvariant_engineOk.reset, stepInvariant_noEngineOk.reset,
    digestOk_of_not_dvalid rfl, codesOk_reset, stepInvariant_historyOk.reset⟩

end Sys2Proof.Machine
end

section
/-! The port refines the transaction step (00_scope.md R12, 70_reset_and_hazards.md R130, R133): a command neither reads
nor writes the edges to come, so a transaction's edges amount to its command and the delivery of its response. -/

namespace Sys2Proof.Machine

/-- The state with other edges to come. -/
def State.withEdges (es : List ClockEdge) (s : State) : State := { s with edges := es }

/-! Commands commute with replacing the edges to come. -/

section
variable (es : List ClockEdge)

theorem absorb_withEdges (s : State) (b : Byte) : absorb (s.withEdges es) b = (absorb s b).withEdges es := by
  by_cases h : s.bufLen = 64
  · rw [absorb_of_full b h, absorb_of_full (s := s.withEdges es) b h]; rfl
  · rw [absorb_of_room b h, absorb_of_room (s := s.withEdges es) b h]; rfl

theorem absorbAll_withEdges (l : List Byte) (s : State) :
    absorbAll l (s.withEdges es) = (absorbAll l s).withEdges es := by
  induction l generalizing s with
  | nil => rfl
  | cons b l ih => rw [absorbAll_cons, absorbAll_cons, absorb_withEdges, ih]

theorem writeReg_withEdges (s : State) (v : Word) (r : Reg) :
    writeReg (s.withEdges es) v r = (writeReg s v r).map (State.withEdges es) := by
  cases r <;> rfl

theorem readReg_withEdges (s : State) (r : Reg) : readReg (s.withEdges es) r = readReg s r := by
  cases r <;> rfl

theorem deliver_withEdges (s : State) : deliver (s.withEdges es) = (deliver s).withEdges es := by
  cases hout : s.outstanding <;> simp [deliver, State.withEdges, hout]

variable {i : Instr} {s : State}

theorem FailsWith.withEdges {rc : RC} (h : FailsWith i s rc) : FailsWith i (s.withEdges es) rc := by
  cases h with
  | @cfgWr sel arg _ hsel =>
    refine .cfgWr ?_
    cases hreg : regOfSel sel with
    | none => rfl
    | some r =>
      rw [hreg, Option.bind_some] at hsel
      rw [Option.bind_some, writeReg_withEdges, hsel, Option.map_none]
  | rd hsel => exact .rd hsel
  | init hcfg => exact .init hcfg
  | reset heng => exact .reset heng
  | writeCount hcount => exact .writeCount hcount
  | writeEngine hcount heng => exact .writeEngine hcount heng
  | sum heng => exact .sum heng

theorem Succeeds.withEdges {u : State} {v : Word} (h : Succeeds i s u v) :
    Succeeds i (s.withEdges es) (u.withEdges es) v := by
  cases h with
  | nop => exact .nop
  | cfgWr hsel hwrite => exact .cfgWr hsel (by rw [writeReg_withEdges, hwrite, Option.map_some])
  | @rd sel r _ hsel => exact readReg_withEdges es s r ▸ .rd hsel
  | init hcfg => exact .init hcfg
  | reset heng => exact .reset heng
  | @write n arg _ hcount heng =>
    have hwrite := Succeeds.write (arg := arg) (s := s.withEdges es) hcount heng
    rw [absorbAll_withEdges] at hwrite
    exact hwrite
  | sum heng => exact .sum heng
  | clrerr => exact .clrerr

theorem exec_withEdges {t : State} (h : exec i s = .next t) : exec i (s.withEdges es) = .next (t.withEdges es) := by
  rcases exec_cases h with ⟨rc, hfail, rfl⟩ | ⟨u, v, hok, rfl⟩
  · exact (hfail.withEdges es).exec_eq
  · exact (hok.withEdges es).exec_eq

/-- A transaction does the same whatever edges are to come, and leaves them. -/
theorem transact_withEdges {cmd arg : Word} {t : State} (h : transact cmd arg s = .next t) :
    transact cmd arg (s.withEdges es) = .next (t.withEdges es) := by
  rcases transact_cases h with ⟨i, hdec, hexec⟩ | ⟨why, hdec, rfl⟩
  · exact (transact_of_instr hdec _).trans (exec_withEdges es hexec)
  · exact transact_of_illegal hdec _

end

/-! Running the machine edge by edge. -/

theorem run_of_step {s t : State} (h : step s = .next t) (k : Nat) : core.run (k + 1) s = core.run k t := by
  have hstep : core.step s = .next t := h
  simp only [Host.Core.run, hstep]

theorem step_withEdges_cons (e : ClockEdge) (es : List ClockEdge) (s : State) :
    step (s.withEdges (e :: es)) = clockEdge e (s.withEdges es) :=
  step_of_cons rfl

theorem clockEdge_accepts {e : ClockEdge} {s t : State} (hrst : e.rstN = true) (hvalid : e.cmdValid = true)
    (hready : s.outstanding = none) (h : transact e.cmdWord e.cmdArg s = .next t) (es : List ClockEdge) :
    clockEdge e (s.withEdges es) = .next (t.withEdges es) :=
  (clockEdge_of_accept (s := s.withEdges es) hrst hvalid hready).trans (transact_withEdges es h)

theorem clockEdge_delivers {e : ClockEdge} {s : State} {r : Response} (hrst : e.rstN = true)
    (hr : s.outstanding = some r) (htake : e.rspReady = true) (hbusy : e.busy = false) :
    clockEdge e s = .next (deliver s) := by
  rw [clockEdge_of_take hrst hr htake hbusy, deliver, hr]

/-- The response is not taken at the edge (30_encoding.md R50). -/
def ClockEdge.Waits (e : ClockEdge) : Prop := e.rstN = true ∧ (e.rspReady = false ∨ e.busy = true)

theorem Transaction.legal_iff (x : Transaction) :
    x.legal = true ↔
      x.accept.rstN = true ∧ x.accept.cmdValid = true ∧ (∀ e ∈ x.waits, e.Waits)
        ∧ x.take.rstN = true ∧ x.take.rspReady = true ∧ x.take.busy = false := by
  simp [Transaction.legal, ClockEdge.Waits, and_assoc, or_comm]

/-- However many edges pass while the response waits, they are all that is consumed: LATENCY changes nothing. -/
theorem run_waits {ws : List ClockEdge} (hws : ∀ e ∈ ws, e.Waits) {s : State} {r : Response}
    (hr : s.outstanding = some r) (k : Nat) (es : List ClockEdge) :
    core.run (ws.length + k) (s.withEdges (ws ++ es)) = core.run k (s.withEdges es) := by
  induction ws with
  | nil => rw [List.length_nil, Nat.zero_add, List.nil_append]
  | cons e ws ih =>
    obtain ⟨⟨hrst, hwait⟩, hrest⟩ := List.forall_mem_cons.mp hws
    have hstep : step (s.withEdges (e :: (ws ++ es))) = .next (s.withEdges (ws ++ es)) :=
      (step_withEdges_cons ..).trans (clockEdge_of_wait hrst hr hwait)
    rw [List.cons_append, List.length_cons, Nat.succ_add, run_of_step hstep, ih hrest]

/-- The edges of one transaction run its command and deliver the response. -/
theorem run_transaction {x : Transaction} (hx : x.legal = true) {s t : State} (hready : s.outstanding = none)
    (h : transact x.accept.cmdWord x.accept.cmdArg s = .next t) (k : Nat) (es : List ClockEdge) :
    core.run (x.edges.length + k) (s.withEdges (x.edges ++ es)) = core.run k ((deliver t).withEdges es) := by
  obtain ⟨harst, hvalid, hwaits, htrst, htake, hbusy⟩ := x.legal_iff.mp hx
  obtain ⟨⟨r, hr⟩, -⟩ := transact_response h
  have haccept : step (s.withEdges (x.accept :: (x.waits ++ x.take :: es)))
      = .next (t.withEdges (x.waits ++ x.take :: es)) :=
    (step_withEdges_cons ..).trans (clockEdge_accepts harst hvalid hready h _)
  have hdeliver : step (t.withEdges (x.take :: es)) = .next ((deliver t).withEdges es) := by
    rw [step_withEdges_cons, clockEdge_delivers (s := t.withEdges es) htrst hr htake hbusy, deliver_withEdges]
  have hlen : x.edges.length + k = (x.waits.length + (k + 1)) + 1 := by
    simp only [Transaction.edges, List.length_cons, List.length_append, List.length_nil]
    omega
  have hedges : x.edges ++ es = x.accept :: (x.waits ++ x.take :: es) := by simp [Transaction.edges]
  rw [hlen, hedges, run_of_step haccept, run_waits hwaits hr, run_of_step hdeliver]

theorem serve_cons {cmd arg : Word} {s t : State} (h : transact cmd arg s = .next t) (l : List (Word × Word)) :
    serve ((cmd, arg) :: l) s = serve l (deliver t) := by
  rw [serve, h]

/-- The command and argument that a transaction's accepting edge offers. -/
def Transaction.word (x : Transaction) : Word × Word := (x.accept.cmdWord, x.accept.cmdArg)

/-- The simulation: the edges of legal transactions serve their commands in order. -/
theorem run_transactions {xs : List Transaction} (hxs : ∀ x ∈ xs, x.legal = true) {s : State}
    (hready : s.outstanding = none) (rest : List ClockEdge) :
    core.run (xs.flatMap Transaction.edges).length (s.withEdges (xs.flatMap Transaction.edges ++ rest))
      = serve (xs.map Transaction.word) (s.withEdges rest) := by
  induction xs generalizing s with
  | nil => rfl
  | cons x xs ih =>
    obtain ⟨hx, hrest⟩ := List.forall_mem_cons.mp hxs
    obtain ⟨t, -, htr, -⟩ := transact_answers x.accept.cmdWord x.accept.cmdArg s
    rw [List.flatMap_cons, List.length_append, List.append_assoc, run_transaction hx hready htr,
      ih hrest (deliver_outstanding t), List.map_cons, Transaction.word, serve_cons (transact_withEdges rest htr),
      deliver_withEdges]

/-- Settles O13: the given state is the one whose edges to come are those of the transactions, and the simulation runs
them. -/
theorem latencyChangesNothing : Obligations.LatencyChangesNothing := by
  intro xs rest s hxs hready hedges
  have hs : s = s.withEdges (xs.flatMap Transaction.edges ++ rest) := by rw [← hedges]; rfl
  have hsim := run_transactions hxs hready rest
  rw [← hs] at hsim
  exact hsim

end Sys2Proof.Machine
end
